-- ==== Sys2Proof/Word.lean ====
section
/-! DEFINITION. The words of the Fengmal 7230 model: bytes of shared memory and 32-bit frame numbers. -/

namespace Sys2Proof

/-- One byte of shared memory. -/
abbrev Byte := BitVec 8

/-- A frame number, counting modulo 2^32 (00_scope.md, Conventions; R16). -/
abbrev Frame := BitVec 32

end Sys2Proof
end

