-- ==== Sys2Proof/Syntax.lean ====
section
/-! DEFINITION. The commands of the 7230: one constructor of `Instr` for each row of
spec/opcode_table.json, with the operands that the row's event brings from outside the part. -/

namespace Sys2Proof

/-- The two streams, master and proxy (00_scope.md). -/
inductive Stream where
  | master
  | proxy
  deriving DecidableEq, Repr

/-- The level of an event line (R144). -/
inductive Level where
  | low
  | high
  deriving DecidableEq, Repr

/-- The number of an event line, EL0 to EL5 (chapter 8). -/
abbrev LineNo := Fin 6

/-- One pixel of the pixel link: a 12-bit luma sample and a 12-bit chroma sample, Cb on even-numbered
pixels and Cr on odd-numbered ones (section 1.1). -/
structure Pixel where
  luma : BitVec 12
  chroma : BitVec 12
  deriving DecidableEq, Repr

/-- Where a request that Clip Control takes comes from: the walker's directive in hand, or the requests
that edges of an event line have handed over (R100, R109, R149 to R151). -/
inductive Source where
  | directive
  | line (n : LineNo)
  deriving DecidableEq, Repr

/-- The commands and events of the 7230, one constructor for each row of spec/opcode_table.json.

A directive's fields are no operands here: the owner reads them from the walker's fetched copy of the
block (R190), which State holds. Times are whole nanoseconds on one clock (log entry 3). -/
inductive Instr where
  /-- FULL_RESET (R2): power-on or the reset line. -/
  | fullReset
  /-- FRAME_START (R9): a frame-start marker at `time`. -/
  | frameStart (time : Nat)
  /-- LINE (R11): a line with its pixels and the check value it carries. -/
  | line (pixels : List Pixel) (check : BitVec 16)
  /-- FRAME_END (R12): a frame-end marker. -/
  | frameEnd
  /-- ATTEMPT_END (R26): the master attempt in progress ends with a payload of `payload` bytes. -/
  | attemptEnd (payload : Nat)
  /-- ACTIVITY_TABLE_INIT_END (R30). -/
  | activityTableInitEnd
  /-- LOOK_CURVE_INIT_END (R46). -/
  | lookCurveInitEnd
  /-- PROXY_CODING_END (R44): proxy coding ends with a payload of `payload` bytes. -/
  | proxyCodingEnd (payload : Nat)
  /-- ENTRY (R160): the host writes `value` to ENTRY. -/
  | entry (value : BitVec 32)
  /-- HEADER_FETCH_DONE (R162): the header fetch burst ends OK and delivers `bytes`. -/
  | headerFetchDone (bytes : List Byte)
  /-- BODY_FETCH_DONE (R163): a body fetch burst ends OK and delivers `bytes`. -/
  | bodyFetchDone (bytes : List Byte)
  /-- SETUP (R3): Picture Intake takes the SETUP handed to it. -/
  | setup
  /-- TUNE (R173): the owners take the TUNE handed to them. -/
  | tune
  /-- LINES (R145): the Event Line Unit takes the LINES handed to it. -/
  | lines
  /-- LOAD_TABLE (R31): the table's owner takes the LOAD_TABLE handed to it. -/
  | loadTable
  /-- GRANT (R119): the Stream Writers take the GRANT handed to them. -/
  | grant
  /-- RELINQUISH (R132): the Stream Writers take the RELINQUISH handed to them. -/
  | relinquish
  /-- START_INTAKE (R5). -/
  | startIntake
  /-- STOP_INTAKE (R6). -/
  | stopIntake
  /-- INTAKE_DRAINED (R6). -/
  | intakeDrained
  /-- ROLL (R97): Clip Control takes a ROLL from `source`. -/
  | roll (source : Source)
  /-- CUT (R101): Clip Control takes a CUT from `source`. -/
  | cut (source : Source)
  /-- MARK (R109): Clip Control takes a mark request from `source`. -/
  | mark (source : Source)
  /-- SET_TIMECODE (R18). -/
  | setTimecode
  /-- WAIT (R176). -/
  | wait
  /-- TABLE_SOURCE_READ_DONE (R32): a table source read burst ends OK and delivers `bytes`. -/
  | tableSourceReadDone (bytes : List Byte)
  /-- OUTCOME_WRITE_DONE (R165). -/
  | outcomeWriteDone
  /-- REFUSED_SLOT_WRITE_DONE (R121). -/
  | refusedSlotWriteDone
  /-- WALKER_RETURNED_COUNT_DONE (R121). -/
  | walkerReturnedCountDone
  /-- HALT (R169). -/
  | halt
  /-- RESUME (R170). -/
  | resume
  /-- STOP (R171). -/
  | stop
  /-- FREEZE (R186): a CONTROL write sets the FREEZE level to `level`. -/
  | freeze (level : Bool)
  /-- ENGINE_RESET (R188). -/
  | engineReset
  /-- ENGINE_RESET_COMPLETE (R189). -/
  | engineResetComplete
  /-- NOTICE (R182): the host writes `value` to NOTICE. -/
  | notice (value : BitVec 32)
  /-- NOTICE_MASK (R180): the host writes `value` to NOTICE_MASK. -/
  | noticeMask (value : BitVec 32)
  /-- IGNORED_REGISTER_WRITE (R178): a write of `value` to IDENT or to an offset from 0x14 to 0x1F. -/
  | ignoredRegisterWrite (offset : BitVec 5) (value : BitVec 32)
  /-- PAGE_REWRITE_DONE (R185). -/
  | pageRewriteDone
  /-- WRITER_BURST_DONE (R126): the burst of a Stream Writer on the port ends OK. -/
  | writerBurstDone
  /-- GAP_TIMER_EXPIRY (R137). -/
  | gapTimerExpiry (stream : Stream)
  /-- RESULT_SLOT_BURST_DONE (R130). -/
  | resultSlotBurstDone
  /-- RESULT_COUNT_BURST_DONE (R130). -/
  | resultCountBurstDone
  /-- BURST_RETRY (R138): the burst on the port is answered RETRY. -/
  | burstRetry
  /-- BURST_ERROR (R138): the burst on the port is answered ERROR. -/
  | burstError
  /-- RAW_LEVEL_CHANGE (R147): from `time` on, line `n` is driven to a level, or by nothing. -/
  | rawLevelChange (n : LineNo) (drive : Option Level) (time : Nat)
  /-- FILTER_TIMER_EXPIRY (R147): the filter timer of line `n` expires at `time`. -/
  | filterTimerExpiry (n : LineNo) (time : Nat)
  /-- TOGGLE (R149): Clip Control takes a toggle of line `n`. -/
  | toggle (n : LineNo)
  /-- BLINK_TIMER_EXPIRY (R114). -/
  | blinkTimerExpiry
  deriving DecidableEq, Repr

end Sys2Proof
end

