-- ==== Sys2Proof/Decode.lean ====
section
/-! DEFINITION. The decoder over the rows of spec/opcode_table.json that give bits. No row gives any. -/

namespace Sys2Proof

/-- The command that a word spells by the table's bits. Every row of the table has an empty list of
fields and no fixed bits: the 7230's commands are events and shared-memory records, not words, so no
word spells one. -/
def decodeTableWord (_nbits _w : Nat) : Option Instr := none

end Sys2Proof
end

