-- ==== Sys2Proof/Config.lean ====
section
/-! DEFINITION. The free values of the model: constants without a body, so that nothing can be proved of
what they are. -/

namespace Sys2Proof.Config

/-- Byte `k` of the payload of the coding numbered `tag`. The manual names and sizes the coded payload
and does not describe its bitstream (00_scope.md, What this manual covers), so every coding gets bytes
of its own that nothing constrains (log entry 1). -/
opaque codedByte (tag k : Nat) : Byte

/-- What bits 7 to 4 of byte 228 of the status page show while the block in hand carries a kind code
above 15, which four bits cannot hold (section 11.4; log entry 2). -/
opaque wideKindNibble (kind : Byte) : BitVec 4

end Sys2Proof.Config
end

