-- ==== Sys2Proof/Machine/State.lean ====
section
/-! DEFINITION. The state of the 7230: every piece of state that the manual names, block by block as
00_scope.md lists the blocks, as plain data; the reasons a command can stop; the state after full
reset. -/

namespace Sys2Proof.Machine

/-! ## Shapes used by several blocks -/

/-- One value for each stream. -/
structure Per (α : Type) where
  master : α
  proxy : α
  deriving DecidableEq, Repr

/-- The four requesters of the System Port Arbiter, in ring order (R135). -/
inductive Requester where
  | walker
  | page
  | master
  | proxy
  deriving DecidableEq, Repr

/-- One value for each requester of the arbiter. -/
structure Quad (α : Type) where
  walker : α
  page : α
  master : α
  proxy : α
  deriving DecidableEq, Repr

/-- Shared memory as the part has written it: (address, byte) pairs in strictly rising address order
(log entry 4). An address that is not listed holds what the host put there. -/
abbrev Memory := List Host.Cell

/-- A timecode label with its drop-frame flag (section 1.10). -/
structure Label where
  hours : Nat
  minutes : Nat
  seconds : Nat
  frames : Nat
  drop : Bool
  deriving DecidableEq, Repr

/-! ## Picture Intake and the Slot Pool (chapter 1) -/

/-- The intake state (section 1.2). -/
inductive IntakeState where
  | stopped
  | running
  | stopping
  deriving DecidableEq, Repr

/-- The geometry and rate code in force: W, H, f and the rate code 0–11 (R4). Wp and Hp are W/f and H/f. -/
structure Geometry where
  width : Nat
  height : Nat
  factor : Nat
  code : Fin 12
  deriving DecidableEq, Repr

/-- The frame in arrival (R9). `slot` is absent for a lost frame. -/
structure Arrival where
  frame : Frame
  label : Label
  unlocked : Bool
  phase : Nat
  slot : Option Nat
  lines : Nat
  bad : Bool
  deriving DecidableEq, Repr

/-- What Picture Intake owns. `geometry` is present once a SETUP has been accepted (R4). -/
structure Intake where
  state : IntakeState
  geometry : Option Geometry
  arrival : Option Arrival
  counter : Frame
  timecode : Label
  lost : Nat
  malformed : Nat
  deriving DecidableEq, Repr

/-- The state of a picture slot (section 1.5). -/
inductive SlotState where
  | free
  | filling
  | ready
  deriving DecidableEq, Repr

/-- A picture slot: its state, its reference count and the lines written into it. -/
structure Slot where
  state : SlotState
  refs : Nat
  lines : List (List Pixel)
  deriving DecidableEq, Repr

/-- A slot item of an input list (section 1.8). -/
structure SlotItem where
  slot : Nat
  frame : Frame
  label : Label
  unlocked : Bool
  phase : Nat
  deriving DecidableEq, Repr

/-- An item of an input list: a slot item, or a gap token with its first frame, its count of frames and
the label of its first frame (section 1.8). -/
inductive Item where
  | slot (item : SlotItem)
  | gap (first : Frame) (count : Nat) (label : Label)
  deriving DecidableEq, Repr

/-! ## The Master Coder (chapter 2) -/

/-- The state of a table that the part initialises itself (R30, R46). -/
inductive TableState where
  | initialising
  | ready
  deriving DecidableEq, Repr

/-- The master settings in force: Qm, the size cap in KiB and the four class offsets (R29). -/
structure MasterSettings where
  step : Nat
  cap : Nat
  offsets : List Int
  deriving DecidableEq, Repr

/-- The Master Coder's current picture (R22): the slot item, the copies taken at its beginning, the
activity indices measured at the first attempt (R23), the attempt in progress with its picture step and
tile steps (R24), and the latest attempt completed with its step and coded size. `source` is the
activity table's contents, or absent for neutral. -/
structure MasterPicture where
  item : SlotItem
  width : Nat
  height : Nat
  settings : MasterSettings
  source : Option (List Nat)
  indices : List Nat
  attempt : Nat
  step : Nat
  tileSteps : List Nat
  latest : Option (Nat × Nat × Nat)
  deriving DecidableEq, Repr

/-- What the Master Coder owns; it is CODING exactly while it has a current picture (R20). -/
structure MasterCoder where
  picture : Option MasterPicture
  settings : MasterSettings
  table : List Nat
  tableState : TableState
  deriving DecidableEq, Repr

/-! ## The Proxy Path (chapter 3) -/

/-- The proxy filter (R40). -/
inductive Filter where
  | short
  | long
  deriving DecidableEq, Repr

/-- The Proxy Path's current picture (R39): the slot item, the copies taken at its beginning, and the
scaled and mapped proxy picture that the Proxy Coder codes (R41 to R43). `curve` is the look curve's
points, or absent for pass-through. -/
structure ProxyPicture where
  item : SlotItem
  geometry : Geometry
  filter : Filter
  step : Nat
  curve : Option (List Nat)
  pixels : List (List Pixel)
  deriving DecidableEq, Repr

/-- What the Proxy Path owns; it is CODING exactly while it has a current picture (R35). -/
structure ProxyPath where
  picture : Option ProxyPicture
  filter : Filter
  curve : List Nat
  curveState : TableState
  deriving DecidableEq, Repr

/-! ## The Rate Governor (chapter 4) -/

/-- The governor mode (R51). -/
inductive GovernorMode where
  | off
  | degrade
  | skip
  deriving DecidableEq, Repr

/-- The seven governor inputs in force (R51). -/
structure GovernorInputs where
  mode : GovernorMode
  rate : Nat
  depth : Nat
  threshold : Nat
  qmin : Nat
  qmax : Nat
  qstart : Nat
  deriving DecidableEq, Repr

/-- What the Rate Governor owns: inputs, the derived quantities n, A, B and T (R53), the credit C, the
remainder r and the step Q (R55), whether a picture is open, and the two counts (R56). -/
structure Governor where
  inputs : GovernorInputs
  n : Nat
  nominal : Nat
  burst : Nat
  skipAt : Nat
  credit : Int
  remainder : Nat
  step : Nat
  openPicture : Bool
  overruns : Nat
  repeats : Nat
  deriving DecidableEq, Repr

/-! ## Clips and queue entries (chapters 5 and 6) -/

/-- The kind of a mark (section 6.8). -/
inductive MarkKind where
  | good
  | flag
  deriving DecidableEq, Repr

/-- A mark: its frame, kind and source (section 6.8). -/
structure Mark where
  frame : Frame
  kind : MarkKind
  source : Source
  deriving DecidableEq, Repr

/-- Why a clip was closed (R94). -/
inductive CloseReason where
  | cutStopped
  | brokenMasterFull
  | brokenProxyFull
  | brokenIndexFull
  deriving DecidableEq, Repr

/-- A clip's counts for one stream (R103). `oversizePast` is the model's own: the OVERSIZE pieces reported
while the oversize count held at 65,535, for which R103 added nothing (log entry 41). -/
structure Counts where
  entries : Nat
  repeats : Nat
  gaps : Nat
  oversize : Nat
  unlocked : Nat
  oversizePast : Nat
  deriving DecidableEq, Repr

/-- A clip's last frame and close reason, present once it is CLOSING (R94). -/
structure Closing where
  last : Frame
  reason : CloseReason
  deriving DecidableEq, Repr

/-- A clip of the clip table (R94). It is RECORDING while `closing` is absent, and CLOSING after. -/
structure Clip where
  number : Nat
  first : Frame
  closing : Option Closing
  start : Option Label
  marks : List Mark
  lostMarks : Nat
  reach : Per Frame
  counts : Per Counts
  overrunMark : Nat
  repeatMark : Nat
  queued : Per Bool
  written : Per Bool
  deriving DecidableEq, Repr

/-- The clip record and marks that a trailer's payload holds (R107). -/
structure TrailerRecord where
  last : Frame
  reason : CloseReason
  lostMarks : Nat
  counts : Counts
  overrunDelta : Nat
  repeatDelta : Nat
  marks : List Mark
  deriving DecidableEq, Repr

/-- The kind of a queue entry (R72). -/
inductive EntryKind where
  | coded
  | repeated
  | gap
  | trailer
  deriving DecidableEq, Repr

/-- The payload of an entry (R72): none, the coded bytes of the coding numbered `tag`, or a trailer's
clip record and marks. -/
inductive Payload where
  | none
  | coded (tag : Nat)
  | trailer (record : TrailerRecord)
  deriving DecidableEq, Repr

/-- A queue entry (R72). It is COMMITTED while it has a clip and HELD while it has none. -/
structure Entry where
  kind : EntryKind
  stream : Stream
  frame : Frame
  count : Nat
  label : Label
  clip : Option Nat
  size : Nat
  preroll : Bool
  unlocked : Bool
  oversize : Bool
  step : Nat
  attempt : Nat
  phase : Nat
  payload : Payload
  deriving DecidableEq, Repr

/-- One picture queue: its entries, front first, and its above-mark flag (R91). Bytes and places in use
are counted from the entries (R71). -/
structure Queue where
  entries : List Entry
  aboveMark : Bool
  deriving DecidableEq, Repr

/-- What the Queue Manager owns (chapter 5). -/
structure QueueManager where
  queues : Per Queue
  intakeMarks : Per (Option Frame)
  agingLine : Frame
  depth : Nat
  limit : Nat
  highMark : Nat
  deriving DecidableEq, Repr

/-- The kind of the last clip event (R97 to R108, section 11.4). -/
inductive ClipEvent where
  | opened
  | closed
  | cancelled
  | broken
  | retired
  | rollRefused
  deriving DecidableEq, Repr

/-- The tally mode (R113). -/
inductive TallyMode where
  | auto
  | forceOn
  | forceOff
  deriving DecidableEq, Repr

/-- The lamp state (R114). -/
inductive Lamp where
  | dark
  | lit
  | blink
  deriving DecidableEq, Repr

/-- What Clip Control owns (chapter 6): the clip table of 4 records, a record free where it is absent. -/
structure ClipControl where
  table : List (Option Clip)
  nextNumber : Nat
  recentStart : Option Frame
  rollFloor : Frame
  held : List Mark
  heldLost : Nat
  lastEvent : Option (ClipEvent × Nat)
  tallyMode : TallyMode
  blinkTime : Nat
  lamp : Lamp
  blinkTimer : Option Nat
  deriving DecidableEq, Repr

/-! ## The Stream Writers (chapter 7) -/

/-- Why a segment or a grant slot was returned (section 11.2). -/
inductive Reason where
  | full
  | clipEnd
  | relinquished
  | busFault
  | engineReset
  | refusedForm
  | refusedDuplicate
  | refusedFull
  deriving DecidableEq, Repr

/-- A segment in a segment list: start address, length, grant block and slot index (R118). Its stream is
the one whose list or writer holds it. -/
structure Segment where
  start : Nat
  length : Nat
  block : Nat
  slot : Nat
  deriving DecidableEq, Repr

/-- The current segment of a writer and the result it is building (R118). -/
structure Current where
  segment : Segment
  position : Nat
  entryStart : Option Nat
  clip : Option Nat
  first : Option Frame
  begun : Nat
  continued : Bool
  deriving DecidableEq, Repr

/-- The result of a segment, fixed when it closes (R129). `own` says that a writer closed its current
segment and awaits this result (R123), `counted` that a RELINQUISH in hand returns it (R132). -/
structure Result where
  stream : Stream
  segment : Segment
  bytesUsed : Nat
  clip : Nat
  first : Frame
  begun : Nat
  continued : Bool
  reason : Reason
  own : Bool
  counted : Bool
  deriving DecidableEq, Repr

/-- The grant record of a grant block (R118). -/
structure GrantRecord where
  block : Nat
  stream : Stream
  slots : Nat
  returned : Nat
  deriving DecidableEq, Repr

/-- The state of a writer (R122). -/
inductive WriterState where
  | idle
  | writing
  | starved
  | gap
  deriving DecidableEq, Repr

/-- When a close of the current segment that a RELINQUISH asked for takes place (R133): at the end of the
burst in progress, or after the entry that is mid-write. -/
inductive CloseWhen where
  | afterBurst
  | afterEntry
  deriving DecidableEq, Repr

/-- A RELINQUISH in hand (R132, R133): the close still to come, and the segments returned so far. -/
structure Relinquish where
  close : Option CloseWhen
  returned : Nat
  deriving DecidableEq, Repr

/-- What one Stream Writer owns. `written` is the written count of the entry at the front (R126),
`gapTimer` the time a running courtesy gap began with (R137). -/
structure Writer where
  segments : List Segment
  current : Option Current
  state : WriterState
  written : Nat
  gapCount : Nat
  gapTimer : Option Nat
  belowWatermark : Bool
  spell : Bool
  spells : Nat
  relinquish : Option Relinquish
  deriving DecidableEq, Repr

/-- What the two writers own and share: the grant records and the writer settings in force (R136). -/
structure Writers where
  streams : Per Writer
  grants : List GrantRecord
  watermark : Nat
  gapTime : Nat
  retry : Nat
  deriving DecidableEq, Repr

/-! ## The System Port Arbiter (section 7.7) -/

/-- What a burst carries. -/
inductive BurstKind where
  | header
  | body
  | table
  | outcome
  | refusedSlot
  | walkerCount
  | rewrite
  | resultSlot
  | resultCount
  | entry
  deriving DecidableEq, Repr

/-- A burst: what it carries, its address, its length in bytes, and the bytes it writes (none for a
read, and none for a page rewrite that has not begun). -/
structure Burst where
  kind : BurstKind
  address : Nat
  length : Nat
  data : List Byte
  deriving DecidableEq, Repr

/-- What the arbiter owns: each requester's burst and attempt count, the requester whose burst is in
progress on the port, the priorities in force (`true` for HIGH), the round-robin position and the RETRY
count. `resetBurst` says that the burst on the port was in progress when an engine reset began (R189). -/
structure Arbiter where
  bursts : Quad (Option Burst)
  attempts : Quad Nat
  port : Option Requester
  resetBurst : Bool
  high : Quad Bool
  position : Requester
  retries : Nat
  deriving DecidableEq, Repr

/-! ## The Event Line Unit (chapter 8) -/

/-- The role of an event line (R144). -/
inductive Role where
  | none
  | rollToggle
  | rollHold
  | markGood
  | markFlag
  | syncRef
  deriving DecidableEq, Repr

/-- The edge setting of an event line (R144). -/
inductive Edge where
  | falling
  | rising
  | both
  deriving DecidableEq, Repr

/-- The filter time of an event line: 0, 0.25, 1, 4 or 16 ms (R144). -/
inductive FilterTime where
  | zero
  | quarter
  | one
  | four
  | sixteen
  deriving DecidableEq, Repr

/-- An event line (R144). `drive` is the level that something outside drives the line to; while it is
absent the pull holds the raw level at the idle level (section 8.1). `timer` is the target of a running
filter timer. -/
structure Line where
  role : Role
  edge : Edge
  active : Level
  idle : Level
  filter : FilterTime
  drive : Option Level
  filtered : Level
  timer : Option Level
  deriving DecidableEq, Repr

/-- A request that an edge of an event line has handed to Clip Control and that Clip Control has not yet
taken (R149 to R151). -/
inductive LineRequest where
  | toggle
  | roll
  | cut
  | mark (kind : MarkKind)
  deriving DecidableEq, Repr

/-- The result of a capture (R153). -/
inductive CaptureResult where
  | hit
  | miss
  deriving DecidableEq, Repr

/-- The sync state (R155). -/
inductive SyncState where
  | none
  | locked
  | lost
  deriving DecidableEq, Repr

/-- The sync capture (sections 8.6 to 8.8): the reference frame start's time, the last phase, the last
deviation and result, the runs, the missing-edge count, the sync state and the tolerance w. -/
structure SyncCapture where
  reference : Option Nat
  lastPhase : Nat
  last : Option (Nat × CaptureResult)
  hitRun : Nat
  missRun : Nat
  missing : Nat
  state : SyncState
  tolerance : Nat
  deriving DecidableEq, Repr

/-- What the Event Line Unit owns: six lines, the requests its edges have handed over, oldest first, and
the sync capture. -/
structure EventLines where
  lines : List Line
  requests : List (LineNo × LineRequest)
  sync : SyncCapture
  deriving DecidableEq, Repr

/-! ## The Directive Walker (chapter 9) -/

/-- The walker state (R159). -/
inductive WalkerState where
  | idle
  | walking
  | waiting
  | halted
  | stopping
  | resetting
  deriving DecidableEq, Repr

/-- A directive in flight, and what it waits for (R163). `frames` counts the frame starts still to come
(R176). -/
inductive Flight where
  | roll
  | cut
  | stopIntake
  | loadTable
  | relinquish (stream : Stream)
  | frames (left : Nat)
  | drained
  deriving DecidableEq, Repr

/-- How far the block in hand has gone (R159): fetching its header or body, handed to its owner, in
flight, reading a table source (the bytes that have arrived), writing the results of a GRANT's `refused`
slots (the slot indices and reasons still to write), writing a GRANT's returned count, or writing its
outcome (code, detail and completion frame). -/
inductive Stage where
  | header
  | body
  | handed
  | inFlight (flight : Flight)
  | reading (got : List Byte)
  | slots (refused : Nat) (left : List (Nat × Reason))
  | count (refused : Nat)
  | outcome (code : Nat) (detail : Nat) (frame : Frame)
  deriving DecidableEq, Repr

/-- The current block: address, fetched header and body, and how far it has gone. `granted` is set once a
GRANT has been taken under R120. -/
structure Block where
  address : Nat
  header : List Byte
  body : List Byte
  stage : Stage
  granted : Bool
  deriving DecidableEq, Repr

/-- The continuation of a HALTED walker (R165). -/
inductive Continuation where
  | chainEnd
  | next (address : Nat)
  deriving DecidableEq, Repr

/-- The last refusal reason of ENTRY (R160). -/
inductive EntryRefusal where
  | none
  | misaligned
  | outOfRange
  | pendingFull
  | resetting
  deriving DecidableEq, Repr

/-- The walker's record (R159). `lastBlock` holds the last block's address with its completion frame
(log entry 12). -/
structure Walker where
  state : WalkerState
  block : Option Block
  count : Nat
  continuation : Option Continuation
  lastBlock : Option (Nat × Frame)
  lastTag : BitVec 32
  haltRequest : Bool
  pendingEntry : Option Nat
  lastRefusal : EntryRefusal
  deriving DecidableEq, Repr

/-! ## The Notice Unit and the Page Writer (chapter 10) -/

/-- The kinds of fault (section 11.4, offset 241). -/
inductive FaultKind where
  | systemError
  | retryLimit
  | fetchFault
  | writebackFault
  | chainForm
  | chainLoop
  | frameLost
  | frameMalformed
  | queueFull
  | resultWrite
  deriving DecidableEq, Repr

/-- The blocks that report faults (section 11.4, offset 242). -/
inductive FaultSource where
  | pictureIntake
  | clipControl
  | masterWriter
  | proxyWriter
  | pageWriter
  | directiveWalker
  deriving DecidableEq, Repr

/-- A fault as it is reported (section 10.3). -/
structure FaultReport where
  kind : FaultKind
  source : FaultSource
  address : Option Nat
  frame : Option Frame
  stream : Option Stream
  deriving DecidableEq, Repr

/-- What the Notice Unit owns: pending notices and mask at the bit positions of NOTICE (R180), the
captured fault and later-fault count of the error log (R181), and the FREEZE level (R186). -/
structure NoticeUnit where
  pending : BitVec 22
  mask : BitVec 22
  log : Option FaultReport
  later : Nat
  freeze : Bool
  deriving DecidableEq, Repr

/-- The two kinds of work of the Page Writer (R187). -/
inductive PageWork where
  | rewrite
  | result
  deriving DecidableEq, Repr

/-- What the Page Writer owns: the page address in force, the page sequence, the rewrite owed flag,
whether the rewrite it requested has begun (R185), the last kind made (R187) and the result queue,
oldest first (R130). -/
structure PageWriter where
  address : Option Nat
  sequence : BitVec 32
  owed : Bool
  begun : Bool
  lastKind : PageWork
  results : List Result
  deriving DecidableEq, Repr

/-! ## The whole state -/

/-- The state of the 7230. `pending` is the queue of commands that wait, first in, first out (the
model's own; log entry 5). `freeTag` counts the codings whose bytes are free values (the model's own;
log entry 1). -/
structure State where
  pending : List Instr
  intake : Intake
  slots : List Slot
  inputs : Per (List Item)
  master : MasterCoder
  proxy : ProxyPath
  governor : Governor
  queue : QueueManager
  clips : ClipControl
  writers : Writers
  arbiter : Arbiter
  lines : EventLines
  walker : Walker
  notices : NoticeUnit
  page : PageWriter
  shared : Memory
  freeTag : Nat
  deriving DecidableEq, Repr

/-- Why a command stops the machine with a fault. There is no reason: the manual gives every command an
effect in every state, so no meaning ends in a fault. -/
inductive Fault where
  deriving DecidableEq, Repr

/-- Why a command is refused. -/
inductive Refusal where
  /-- Raised by an arm of `exec` for a command that has no meaning yet. Safe: the model stops. No arm
  raises it in this model. -/
  | notModelled (mnemonic : String)
  deriving DecidableEq, Repr

/-! ## Full reset -/

/-- Intake after full reset (R19). -/
def Intake.reset : Intake where
  state := .stopped
  geometry := none
  arrival := none
  counter := 0
  timecode := ⟨0, 0, 0, 0, false⟩
  lost := 0
  malformed := 0

/-- A FREE slot: reference count 0 and no lines anyone needs (R7). -/
def Slot.empty : Slot := ⟨.free, 0, []⟩

/-- The Master Coder after full reset (R34): the table is INITIALISING; its entries are those
self-initialisation writes. -/
def MasterCoder.reset : MasterCoder where
  picture := none
  settings := ⟨16, 0, [-2, 0, 2, 4]⟩
  table := List.replicate 64 1
  tableState := .initialising

/-- The identity look curve, P[k] = min(128k, 4095) for k = 0 to 32 (R46). -/
def identityCurve : List Nat := (List.range 33).map fun k => min (128 * k) 4095

/-- The Proxy Path after full reset (R50). -/
def ProxyPath.reset : ProxyPath where
  picture := none
  filter := .short
  curve := identityCurve
  curveState := .initialising

/-- The Rate Governor after full reset (R51, R54, R70). -/
def Governor.reset : Governor where
  inputs := ⟨.off, 10000, 8, 8, 4, 40, 20⟩
  n := 0
  nominal := 0
  burst := 0
  skipAt := 0
  credit := 0
  remainder := 0
  step := 20
  openPicture := false
  overruns := 0
  repeats := 0

/-- The Queue Manager after full reset (R93). -/
def QueueManager.reset : QueueManager where
  queues := ⟨⟨[], false⟩, ⟨[], false⟩⟩
  intakeMarks := ⟨none, none⟩
  agingLine := 0
  depth := 0
  limit := 0
  highMark := 80

/-- Clip Control after full reset (R117). -/
def ClipControl.reset : ClipControl where
  table := List.replicate 4 none
  nextNumber := 1
  recentStart := none
  rollFloor := 0
  held := []
  heldLost := 0
  lastEvent := none
  tallyMode := .auto
  blinkTime := 100
  lamp := .dark
  blinkTimer := none

/-- A Stream Writer after full reset (R143). -/
def Writer.reset : Writer where
  segments := []
  current := none
  state := .idle
  written := 0
  gapCount := 0
  gapTimer := none
  belowWatermark := false
  spell := false
  spells := 0
  relinquish := none

/-- The writers after full reset (R143). -/
def Writers.reset : Writers where
  streams := ⟨Writer.reset, Writer.reset⟩
  grants := []
  watermark := 0
  gapTime := 0
  retry := 4

/-- The arbiter after full reset (R143). -/
def Arbiter.reset : Arbiter where
  bursts := ⟨none, none, none, none⟩
  attempts := ⟨0, 0, 0, 0⟩
  port := none
  resetBurst := false
  high := ⟨false, false, true, false⟩
  position := .proxy
  retries := 0

/-- An event line after full reset that is driven to `drive`: the filtered level equals the raw level
as it stands when full reset ends (R144). -/
def Line.reset (drive : Option Level) : Line where
  role := .none
  edge := .falling
  active := .low
  idle := .high
  filter := .zero
  drive := drive
  filtered := drive.getD .high
  timer := none

/-- The sync capture after full reset (R158). -/
def SyncCapture.reset : SyncCapture where
  reference := none
  lastPhase := 0
  last := none
  hitRun := 0
  missRun := 0
  missing := 0
  state := .none
  tolerance := 128

/-- The walker after full reset (R159). -/
def Walker.reset : Walker where
  state := .idle
  block := none
  count := 0
  continuation := none
  lastBlock := none
  lastTag := 0
  haltRequest := false
  pendingEntry := none
  lastRefusal := .none

/-- The Notice Unit after full reset (R180, R181, R189). -/
def NoticeUnit.reset : NoticeUnit where
  pending := 0
  mask := 0
  log := none
  later := 0
  freeze := false

/-- The Page Writer after full reset (R187, R189). -/
def PageWriter.reset : PageWriter where
  address := none
  sequence := 0
  owed := false
  begun := false
  lastKind := .result
  results := []

/-- The state right after full reset, with no command waiting, nothing written to shared memory, and no
event line driven (log entry 6). -/
def State.reset : State where
  pending := []
  intake := Intake.reset
  slots := List.replicate 16 Slot.empty
  inputs := ⟨[], []⟩
  master := MasterCoder.reset
  proxy := ProxyPath.reset
  governor := Governor.reset
  queue := QueueManager.reset
  clips := ClipControl.reset
  writers := Writers.reset
  arbiter := Arbiter.reset
  lines := ⟨List.replicate 6 (Line.reset none), [], SyncCapture.reset⟩
  walker := Walker.reset
  notices := NoticeUnit.reset
  page := PageWriter.reset
  shared := []
  freeTag := 0

end Sys2Proof.Machine
end

