-- ==== Sys2Proof/Machine/Ops.lean ====
section
/-! DEFINITION. The small operations the blocks share: reading and writing one stream's or requester's
part, counting with a hold, comparing frame numbers, little-endian bytes and shared memory. -/

namespace Sys2Proof.Machine

/-! ## Parts by stream and by requester -/

/-- The part of one stream. -/
def Per.get {α : Type} (p : Per α) : Stream → α
  | .master => p.master
  | .proxy => p.proxy

/-- `p` with the part of one stream replaced. -/
def Per.set {α : Type} (p : Per α) (a : α) : Stream → Per α
  | .master => { p with master := a }
  | .proxy => { p with proxy := a }

/-- Both parts mapped. -/
def Per.map {α β : Type} (p : Per α) (f : Stream → α → β) : Per β := ⟨f .master p.master, f .proxy p.proxy⟩

/-- The other stream. -/
def otherStream : Stream → Stream
  | .master => .proxy
  | .proxy => .master

/-- The part of one requester. -/
def Quad.get {α : Type} (q : Quad α) : Requester → α
  | .walker => q.walker
  | .page => q.page
  | .master => q.master
  | .proxy => q.proxy

/-- `q` with the part of one requester replaced. -/
def Quad.set {α : Type} (q : Quad α) (a : α) : Requester → Quad α
  | .walker => { q with walker := a }
  | .page => { q with page := a }
  | .master => { q with master := a }
  | .proxy => { q with proxy := a }

/-- The requester that a stream's writer is (section 7.7). -/
def writerRequester : Stream → Requester
  | .master => .master
  | .proxy => .proxy

/-- The stream whose writer a requester is, if it is one. -/
def requesterStream : Requester → Option Stream
  | .master => some .master
  | .proxy => some .proxy
  | .walker | .page => none

/-! ## Counting and frame order -/

/-- The most a 32-bit count can hold. -/
def countMax : Nat := 2 ^ 32 - 1

/-- `n` raised by `k`, holding at `limit`. -/
def countUp (limit n k : Nat) : Nat := min (n + k) limit

/-- `v` brought to the nearest end of the range from `low` to `high` (00_scope.md, Words for outcomes). -/
def clamp (low high v : Nat) : Nat := min (max v low) high

/-- `v` brought to the nearest end of a range of whole numbers. -/
def clampInt (low high v : Int) : Int := min (max v low) high

/-- Frame `g` is below frame `x`: (x − g) mod 2^32 lies in 1 to 2^31 − 1 (R73). -/
def isBelow (g x : Frame) : Bool := decide (1 ≤ (x - g).toNat ∧ (x - g).toNat < 2 ^ 31)

/-- `v`, raised to `x` where it is below it. -/
def raiseTo (x v : Frame) : Frame := if isBelow v x then x else v

/-- The frame after the last of `count` frames from `first` on. -/
def frameAfter (first : Frame) (count : Nat) : Frame := first + BitVec.ofNat 32 count

/-- The last of `count` frames from `first` on. -/
def lastFrame (first : Frame) (count : Nat) : Frame := frameAfter first count - 1

/-- The first of the listed indices whose element satisfies `p`. -/
def firstIndex {α : Type} (p : α → Bool) : List α → Option Nat
  | [] => none
  | a :: rest => if p a then some 0 else (firstIndex p rest).map (· + 1)

/-- `list` with its element at `i` changed by `f`; unchanged where there is none. -/
def changeAt {α : Type} (f : α → α) : Nat → List α → List α
  | _, [] => []
  | 0, a :: rest => f a :: rest
  | i + 1, a :: rest => a :: changeAt f i rest

/-! ## Bytes -/

/-- `v` in `n` bytes, little-endian (00_scope.md, Shared memory). -/
def leBytes : Nat → Nat → List Byte
  | 0, _ => []
  | n + 1, v => BitVec.ofNat 8 v :: leBytes n (v / 256)

/-- A signed value in `n` bytes, two's complement, little-endian. -/
def leSigned (n : Nat) (v : Int) : List Byte := leBytes n (v % (256 ^ n : Nat)).toNat

/-- The value of little-endian bytes. -/
def leValue : List Byte → Nat
  | [] => 0
  | b :: rest => b.toNat + 256 * leValue rest

/-- A byte taken as a signed value, two's complement. -/
def signedByte (b : Byte) : Int := b.toInt

/-- A bit as a number. -/
def bit (b : Bool) : Nat := if b then 1 else 0

/-! ## Shared memory -/

/-- One byte written. The list stays in strictly rising address order. -/
def writeByte : Memory → Nat → Byte → Memory
  | [], a, b => [(a, b)]
  | c :: rest, a, b =>
    if a < c.1 then (a, b) :: c :: rest
    else if a = c.1 then (a, b) :: rest
    else c :: writeByte rest a b

/-- Bytes written from address `a` upward. -/
def writeBytes : Memory → Nat → List Byte → Memory
  | m, _, [] => m
  | m, a, b :: rest => writeBytes (writeByte m a b) (a + 1) rest

/-- The byte the part last wrote at `a`; nothing where it has written none that is known to stand. -/
def readByte : Memory → Nat → Option Byte
  | [], _ => none
  | c :: rest, a => if c.1 = a then some c.2 else readByte rest a

/-- The `n` bytes from `a` upward are no longer known: a write burst to them was answered ERROR (log
entry 7). -/
def forgetBytes (m : Memory) (a n : Nat) : Memory := m.filter fun c => decide (c.1 < a ∨ a + n ≤ c.1)

/-- The canonical form: addresses strictly rising. -/
def Memory.wf : Memory → Bool
  | [] => true
  | [_] => true
  | c :: d :: rest => decide (c.1 < d.1) && Memory.wf (d :: rest)

end Sys2Proof.Machine
end

