-- ==== Sys2Proof/Machine/Timecode.lean ====
section
/-! DEFINITION. Rate codes and timecode labels (sections 1.3 and 1.10). -/

namespace Sys2Proof.Machine

/-- A row of the table of rate codes (section 1.3): num/den, the timecode base, and the frames value that
follows the skipped labels (0 where drop-frame is not allowed). -/
structure Rate where
  num : Nat
  den : Nat
  base : Nat
  skip : Nat
  deriving DecidableEq, Repr

/-- The table of rate codes (section 1.3). -/
def rateTable : List Rate :=
  [⟨24000, 1001, 24, 0⟩, ⟨24, 1, 24, 0⟩, ⟨25, 1, 25, 0⟩, ⟨30000, 1001, 30, 2⟩, ⟨30, 1, 30, 0⟩,
   ⟨48, 1, 48, 0⟩, ⟨50, 1, 50, 0⟩, ⟨60000, 1001, 60, 4⟩, ⟨60, 1, 60, 0⟩, ⟨100, 1, 100, 0⟩,
   ⟨120000, 1001, 120, 0⟩, ⟨120, 1, 120, 0⟩]

/-- The row of a rate code. -/
def rateOf (code : Fin 12) : Rate := rateTable.getD code.val ⟨24, 1, 24, 0⟩

/-- The rate in force. Until a SETUP is accepted there is none; nothing then counts labels or time, and
code 1's row stands in. -/
def State.rate (s : State) : Rate :=
  match s.intake.geometry with
  | some g => rateOf g.code
  | none => rateOf 1

/-- The label of the next frame (R17, steps 1 to 6). -/
def nextLabel (r : Rate) (l : Label) : Label :=
  if l.frames + 1 < r.base then { l with frames := l.frames + 1 }
  else if l.seconds + 1 < 60 then { l with frames := 0, seconds := l.seconds + 1 }
  else
    let minutes := if l.minutes + 1 < 60 then l.minutes + 1 else 0
    let hours :=
      if l.minutes + 1 < 60 then l.hours else if l.hours + 1 < 24 then l.hours + 1 else 0
    let frames := if l.drop && minutes % 10 != 0 then r.skip else 0
    { l with hours := hours, minutes := minutes, seconds := 0, frames := frames }

/-- The label counted forward by `n` frames. -/
def labelAfter (r : Rate) : Nat → Label → Label
  | 0, l => l
  | n + 1, l => labelAfter r n (nextLabel r l)

/-- A skipped label (R17). -/
def isSkipped (r : Rate) (l : Label) : Bool :=
  l.drop && decide (l.frames < r.skip) && l.seconds == 0 && l.minutes % 10 != 0

/-- A skipped label raised to the first legal label (R17); any other label as it is. -/
def raiseSkipped (r : Rate) (l : Label) : Label := if isSkipped r l then { l with frames := r.skip } else l

/-- The counter's label made legal under a new rate code (R4): the flag cleared if drop-frame is not
allowed, frames at or above the base set to 0, a skipped label raised. -/
def legalLabel (r : Rate) (l : Label) : Label :=
  let cleared := { l with drop := l.drop && r.skip != 0 }
  let based := if r.base ≤ cleared.frames then { cleared with frames := 0 } else cleared
  raiseSkipped r based

end Sys2Proof.Machine
end

