-- ==== Sys2Proof/Machine/Governor.lean ====
section
/-! DEFINITION. The Rate Governor (chapter 4). -/

namespace Sys2Proof.Machine

/-- The effective burst depth: k, except that 32 counts as 16 outside SKIP (R52). -/
def effectiveDepth (i : GovernorInputs) : Nat :=
  if i.depth = 32 ∧ i.mode ≠ .skip then 16 else i.depth

/-- The derived quantities computed from the inputs in force and the rate (R53). -/
def derive (r : Rate) (g : Governor) : Governor :=
  let n := g.inputs.rate * 125 * r.den
  let nominal := n / r.num
  { g with
    n := n
    nominal := nominal
    burst := nominal * effectiveDepth g.inputs
    skipAt := nominal * g.inputs.threshold / 16 }

/-- The starting state: C to B, r to 0 and Q to the Qstart in force (R69). -/
def startCredit (g : Governor) : Governor :=
  { g with credit := g.burst, remainder := 0, step := g.inputs.qstart }

/-- What a SETUP taken does to the governor (R69). -/
def governorSetup (r : Rate) (g : Governor) : Governor := startCredit (derive r g)

/-- The governor at the beginning of an engine reset (R70, R54). -/
def governorEngineReset (rate : Option Rate) (g : Governor) : Governor :=
  let cleared := { g with openPicture := false, overruns := 0, repeats := 0 }
  match rate with
  | some r => startCredit (derive r cleared)
  | none =>
    { cleared with
      n := 0, nominal := 0, burst := 0, skipAt := 0, credit := 0, remainder := 0
      step := g.inputs.qstart }

/-- The governor's answer to a decision (R37). -/
inductive Decision where
  | repeatPicture
  | code (step : Nat)
  deriving DecidableEq, Repr

/-- The allowance of the next picture (R57). -/
def allowance (r : Rate) (g : Governor) : Nat := (g.n + g.remainder) / r.num

/-- The available credit V (R57). -/
def availableCredit (r : Rate) (g : Governor) : Int := min (g.credit + allowance r g) g.burst

/-- Whether a decision is REPEAT: in SKIP, with V less than T (R58). -/
def decidesRepeat (r : Rate) (g : Governor) : Bool :=
  decide (g.inputs.mode = .skip ∧ availableCredit r g < g.skipAt)

/-- The decision (R57 to R60). -/
def decision (r : Rate) (g : Governor) : Decision :=
  match g.inputs.mode with
  | .off => .code g.inputs.qstart
  | .degrade | .skip => if decidesRepeat r g then .repeatPicture else .code g.step

/-- The governor after a decision (R57 to R60). -/
def afterDecision (r : Rate) (g : Governor) : Governor :=
  match g.inputs.mode with
  | .off => { g with openPicture := true }
  | .degrade | .skip =>
    if decidesRepeat r g then
      { g with
        credit := availableCredit r g - 32
        remainder := (g.n + g.remainder) % r.num
        repeats := countUp countMax g.repeats 1 }
    else
      { g with
        credit := availableCredit r g
        remainder := (g.n + g.remainder) % r.num
        openPicture := true }

/-- The step update from the credit just written (R62). -/
def updatedStep (g : Governor) : Nat :=
  if g.credit < 0 then
    min (g.step + 1 + min ((-g.credit).toNat / g.nominal) 7) g.inputs.qmax
  else if ((g.burst / 2 : Nat) : Int) ≤ g.credit ∧ g.inputs.qmin < g.step then g.step - 1
  else g.step

/-- The credit charged with a picture's coded size, a debt deeper than B cut back and counted (R61). -/
def charge (size : Nat) (g : Governor) : Governor :=
  if g.credit - size < -(g.burst : Int) then
    { g with credit := -(g.burst : Int), overruns := countUp countMax g.overruns 1 }
  else { g with credit := g.credit - size }

/-- The update at a picture's completion (R61 to R63). -/
def afterCompletion (size : Nat) (g : Governor) : Governor :=
  let closed := { g with openPicture := false }
  match g.inputs.mode with
  | .off => closed
  | .degrade | .skip =>
    let charged := charge size closed
    { charged with step := updatedStep charged }

/-! ## TUNE -/

/-- The governor mode of a code: 3 to 255 are clamped to SKIP (R51). -/
def governorModeOf : Nat → GovernorMode
  | 0 => .off
  | 1 => .degrade
  | _ => .skip

/-- The burst depth taken for a given k: the largest of 4, 8, 16 and 32 not above it, or 4 (R51). -/
def depthOf (k : Nat) : Nat := if k < 8 then 4 else if k < 16 then 8 else if k < 32 then 16 else 32

/-- The code of a governor mode (R51). -/
def GovernorMode.code : GovernorMode → Nat
  | .off => 0
  | .degrade => 1
  | .skip => 2

/-- The governor fields of a TUNE as given (R51). -/
structure GovernorFields where
  mode : Nat
  rate : Nat
  depth : Nat
  threshold : Nat
  qmin : Nat
  qmax : Nat
  qstart : Nat
  deriving DecidableEq, Repr

/-- The inputs a TUNE puts in force, each field handled as R51 gives. -/
def handledInputs (f : GovernorFields) : GovernorInputs :=
  let qmax := clamp 1 63 f.qmax
  let qmin := min (clamp 1 63 f.qmin) qmax
  { mode := governorModeOf f.mode
    rate := clamp 500 40000 f.rate
    depth := depthOf f.depth
    threshold := clamp 4 64 f.threshold
    qmin := qmin
    qmax := qmax
    qstart := clamp qmin qmax (clamp 1 63 f.qstart) }

/-- 1 where a value in force differs from the value given. -/
def differs (taken given : Nat) : Nat := if taken = given then 0 else 1

/-- How many governor inputs differ from the values given (R51). -/
def governorAdjusted (f : GovernorFields) : Nat :=
  let i := handledInputs f
  differs i.mode.code f.mode + differs i.rate f.rate + differs i.depth f.depth
    + differs i.threshold f.threshold + differs i.qmin f.qmin + differs i.qmax f.qmax
    + differs i.qstart f.qstart

/-- The effect of a change of R or of the effective burst depth (R64), or of t alone (R65). -/
def tuneAllowance (r : Rate) (old : GovernorInputs) (g : Governor) : Governor :=
  if g.inputs.rate ≠ old.rate ∨ effectiveDepth g.inputs ≠ effectiveDepth old then
    let d := derive r g
    { d with credit := clampInt (-(d.burst : Int)) d.burst d.credit, remainder := 0 }
  else if g.inputs.threshold ≠ old.threshold then
    { g with skipAt := g.nominal * g.inputs.threshold / 16 }
  else g

/-- The effect of a change of Qmin or Qmax (R66). -/
def tuneBounds (old : GovernorInputs) (g : Governor) : Governor :=
  if g.inputs.qmin ≠ old.qmin ∨ g.inputs.qmax ≠ old.qmax then
    { g with step := clamp g.inputs.qmin g.inputs.qmax g.step }
  else g

/-- The effect of a TUNE that completes with the mode OFF (R67). -/
def tuneOff (g : Governor) : Governor :=
  if g.inputs.mode = .off then { g with credit := g.burst, step := g.inputs.qstart } else g

/-- The governor after a TUNE (R51, R54, R64 to R67): with no SETUP accepted there is no rate, and Q
follows Qstart. -/
def governorTune (rate : Option Rate) (f : GovernorFields) (g : Governor) : Governor :=
  let taken := { g with inputs := handledInputs f }
  match rate with
  | none => { taken with step := taken.inputs.qstart }
  | some r => tuneOff (tuneBounds g.inputs (tuneAllowance r g.inputs taken))

end Sys2Proof.Machine
end

