-- ==== Sys2Proof/Machine/Flags.lean ====
section
/-! DEFINITION. The Notice Unit's flags: raising a notice, the error log, the interrupt output and the
rewrite owed (sections 10.2 to 10.4). -/

namespace Sys2Proof.Machine

/-- The 22 notices (R180). -/
inductive Notice where
  | chain
  | entryRefused
  | returned (stream : Stream)
  | low (stream : Stream)
  | starved (stream : Stream)
  | high (stream : Stream)
  | clip
  | mark
  | sync
  | intake
  | fault
  | resetDone
  | line (n : LineNo)
  deriving DecidableEq, Repr

/-- The bit of a stream in a pair of notices. -/
def streamBit : Stream → Nat
  | .master => 0
  | .proxy => 1

/-- The bit position of a notice in NOTICE and NOTICE_MASK (R180). -/
def Notice.position : Notice → Nat
  | .chain => 0
  | .entryRefused => 1
  | .returned st => 2 + streamBit st
  | .low st => 4 + streamBit st
  | .starved st => 6 + streamBit st
  | .high st => 8 + streamBit st
  | .clip => 10
  | .mark => 11
  | .sync => 12
  | .intake => 13
  | .fault => 14
  | .resetDone => 15
  | .line n => 16 + n.val

/-- The NOTICE value with only the bit of `n` set. -/
def Notice.mask (n : Notice) : BitVec 22 := BitVec.twoPow 22 n.position

/-- Whether a notice is pending. -/
def State.isPending (s : State) (n : Notice) : Bool := s.notices.pending.getLsbD n.position

/-- An occasion of R184: the rewrite owed flag is set while a page address is in force. -/
def oweRewrite (s : State) : State :=
  { s with page := { s.page with owed := s.page.owed || s.page.address.isSome } }

/-- A notice is raised: it becomes or stays pending, and a page rewrite is owed (R180, R184). -/
def raise (n : Notice) (s : State) : State :=
  oweRewrite { s with notices := { s.notices with pending := s.notices.pending ||| n.mask } }

/-- The notice `n` raised where `b` holds. -/
def raiseIf (b : Bool) (n : Notice) (s : State) : State := if b then raise n s else s

/-- The error log takes a reported fault: captured while FAULT is not pending, counted otherwise (R181). -/
def logFault (f : FaultReport) (s : State) : NoticeUnit :=
  if s.isPending .fault then { s.notices with later := countUp 255 s.notices.later 1 }
  else { s.notices with log := some f, later := 0 }

/-- A fault is reported (R181). -/
def reportFault (f : FaultReport) (s : State) : State := raise .fault { s with notices := logFault f s }

/-- The interrupt output: asserted while any notice is both pending and enabled (R180). -/
def interrupt (s : State) : Bool := s.notices.pending &&& s.notices.mask != 0

end Sys2Proof.Machine
end

