-- ==== Sys2Proof/Machine/Queues.lean ====
section
/-! DEFINITION. The picture queues: room, the high mark, aging and pre-roll (chapter 5, without joining). -/

namespace Sys2Proof.Machine

/-! ## Entries -/

/-- A HELD entry: one that has no clip (R72). -/
def Entry.isHeld (e : Entry) : Bool := e.clip.isNone

/-- The last frame an entry covers (R72). -/
def Entry.last (e : Entry) : Frame := lastFrame e.frame e.count

/-- Frame `x` lies above every frame that `e` covers. -/
def Entry.allBelow (e : Entry) (x : Frame) : Bool := isBelow e.last x

/-- The part of an entry at or above frame `x`, its label counted forward (R80). -/
def cutFront (r : Rate) (x : Frame) (e : Entry) : Entry :=
  let dropped := (x - e.frame).toNat
  { e with frame := x, count := e.count - dropped, label := labelAfter r dropped e.label }

/-- What becomes of a held entry when the aging line becomes `x`: removed if all its frames lie below,
cut if only its first ones do (R80). -/
def agedEntry (r : Rate) (x : Frame) (e : Entry) : Option Entry :=
  if e.allBelow x then none else if isBelow e.frame x then some (cutFront r x e) else some e

/-- A queue's entries after the aging line becomes `x`: only held entries age (R80, R90). -/
def agedEntries (r : Rate) (x : Frame) (entries : List Entry) : List Entry :=
  entries.filterMap fun e => if e.isHeld then agedEntry r x e else some e

/-- The number of frames covered by held entries: the held count (R76). -/
def heldFrames (entries : List Entry) : Nat := ((entries.filter Entry.isHeld).map Entry.count).sum

/-- The first held entry of a queue. -/
def firstHeld (entries : List Entry) : Option Entry := entries.find? Entry.isHeld

/-- The committed entries and trailers of a queue, counted (R90). -/
def committedCount (entries : List Entry) : Nat := (entries.filter fun e => !e.isHeld).length

/-! ## Room -/

/-- The area of a queue in bytes (section 5.1). -/
def queueArea : Stream → Nat
  | .master => 6442450944
  | .proxy => 1073741824

/-- The bytes in use of a queue (R71). -/
def bytesInUse (entries : List Entry) : Nat := (entries.map Entry.size).sum

/-- A coder's entry of `size` bytes needs a place more than the queue has (R71, R82). -/
def indexFull (entries : List Entry) : Bool := decide (8188 < entries.length + 1)

/-- A coder's entry of `size` bytes fits its queue (R71). -/
def fits (st : Stream) (entries : List Entry) (size : Nat) : Bool :=
  !indexFull entries && decide (bytesInUse entries + size + 1280 ≤ queueArea st)

/-- The mark of a queue in bytes (R91). -/
def markBytes (st : Stream) (highMark : Nat) : Nat := queueArea st * highMark / 100

/-! ## The queues in the state -/

/-- The entries of a stream's queue, front first. -/
def State.entries (s : State) (st : Stream) : List Entry := (s.queue.queues.get st).entries

/-- Pre-roll is on: the depth is above 0 and a rate code is in force (R78). -/
def State.prerollOn (s : State) : Bool := decide (0 < s.queue.depth) && s.intake.geometry.isSome

/-- A queue's entries become `entries`; its above-mark flag is worked out again, and M_HIGH or P_HIGH is
raised where it goes from clear to set (R91). -/
def putQueue (st : Stream) (entries : List Entry) (s : State) : State :=
  let above := decide (markBytes st s.queue.highMark ≤ bytesInUse entries)
  raiseIf (above && !(s.queue.queues.get st).aboveMark) (.high st)
    { s with queue := { s.queue with queues := s.queue.queues.set ⟨entries, above⟩ st } }

/-- Both above-mark flags worked out again (R91). -/
def refreshMarks (s : State) : State := putQueue .proxy (s.entries .proxy) (putQueue .master (s.entries .master) s)

/-- Clip Control drops its held marks below the aging line `x` (R80, R112). -/
def dropHeldMarks (x : Frame) (s : State) : State :=
  { s with clips := { s.clips with held := s.clips.held.filter fun m => !isBelow m.frame x } }

/-- The aging line becomes `x`, and held entries and held marks below it go (R80). -/
def setAging (x : Frame) (s : State) : State :=
  let lined := { s with queue := { s.queue with agingLine := x } }
  let first := putQueue .master (agedEntries s.rate x (s.entries .master)) lined
  dropHeldMarks x (putQueue .proxy (agedEntries s.rate x (s.entries .proxy)) first)

/-- The oldest held master frame is aged out, again and again, while the master held count exceeds
L_pre (R79, R81). Each round ages one frame; `fuel` bounds the rounds. -/
def ageToLimit : Nat → State → State
  | 0, s => s
  | fuel + 1, s =>
    if heldFrames (s.entries .master) ≤ s.queue.limit then s
    else match firstHeld (s.entries .master) with
      | none => s
      | some e => ageToLimit fuel (setAging (e.frame + 1) s)

/-- The pre-roll limit enforced (R81). -/
def enforceLimit (s : State) : State := ageToLimit (heldFrames (s.entries .master)) s

/-- Every held entry of both queues and every held mark is discarded, and the aging line becomes the next
frame to start (R79, R112). -/
def discardHeld (s : State) : State :=
  let kept := fun st => (s.entries st).filter fun e => !e.isHeld
  let lined := { s with
    queue := { s.queue with agingLine := s.intake.counter }
    clips := { s.clips with held := [] } }
  putQueue .proxy (kept .proxy) (putQueue .master (kept .master) lined)

/-- The pre-roll limit L_pre = ceil(d × num / den) (R78). -/
def prerollLimit (rate : Option Rate) (depth : Nat) : Nat :=
  match rate with
  | none => 0
  | some r => (depth * r.num + r.den - 1) / r.den

end Sys2Proof.Machine
end

