-- ==== Sys2Proof/Machine/Clips.lean ====
section
/-! DEFINITION. Clip Control: the clip table, what it keeps of a clip's entries, trailers, marks and the
lamp (chapter 6, without taking ROLL and CUT). -/

namespace Sys2Proof.Machine

/-! ## The clip table -/

/-- The clips in the table, by record number. -/
def State.clipList (s : State) : List Clip := s.clips.table.filterMap id

/-- The clip that is RECORDING, if one is (R94). -/
def State.recording (s : State) : Option Clip := s.clipList.find? fun c => c.closing.isNone

/-- The clip with a number, if it is in the table. -/
def State.clipNumbered (s : State) (number : Nat) : Option Clip := s.clipList.find? fun c => c.number == number

/-- The clip with a number is changed by `f`. -/
def changeClip (number : Nat) (f : Clip → Clip) (s : State) : State :=
  { s with clips := { s.clips with
      table := s.clips.table.map fun record =>
        record.map fun c => if c.number = number then f c else c } }

/-- The record of the clip with a number becomes free. -/
def freeClip (number : Nat) (s : State) : State :=
  { s with clips := { s.clips with
      table := s.clips.table.map fun record => record.filter fun c => c.number != number } }

/-- The older of two clips: the one with the lower F (R94). -/
def olderClip (a b : Clip) : Clip := if isBelow b.first a.first then b else a

/-- The oldest of a list of clips (R94). -/
def oldestClip : List Clip → Option Clip
  | [] => none
  | c :: rest => some (rest.foldl olderClip c)

/-- The current clip of a stream: the oldest in the table whose trailer in it is not yet written (R89). -/
def State.currentClip (s : State) (st : Stream) : Option Clip :=
  oldestClip (s.clipList.filter fun c => !c.written.get st)

/-- The frame belongs to the clip: it is RECORDING with the frame at or above its F, or CLOSING with the
frame at or above its F and not above its L (R74). -/
def Clip.covers (c : Clip) (x : Frame) : Bool :=
  !isBelow x c.first &&
    match c.closing with
    | none => true
    | some closing => !isBelow closing.last x

/-- The last clip event becomes `event` with a clip number, and the CLIP notice is raised. -/
def clipEvent (event : ClipEvent) (number : Nat) (s : State) : State :=
  raise .clip { s with clips := { s.clips with lastEvent := some (event, number) } }

/-- The roll floor is raised to `x` where it is below it (R96). -/
def raiseFloor (x : Frame) (s : State) : State :=
  { s with clips := { s.clips with rollFloor := raiseTo x s.clips.rollFloor } }

/-- The roll floor set to the latest of its present value, the aging line and those intake marks that are
not none (R96: a TUNE that turns pre-roll on). -/
def floorAtPrerollOn (s : State) : State :=
  let lined := raiseFloor s.queue.agingLine s
  let first := match s.queue.intakeMarks.master with
    | none => lined
    | some m => raiseFloor m lined
  match s.queue.intakeMarks.proxy with
  | none => first
  | some m => raiseFloor m first

/-! ## The lamp -/

/-- The lamp goes dark and any blink ends, if the tally mode is AUTO (R101, R102, R105, R114). -/
def lampOut (s : State) : State :=
  if s.clips.tallyMode = .auto then { s with clips := { s.clips with lamp := .dark, blinkTimer := none } }
  else s

/-- The lamp is lit, if the tally mode is AUTO (R99, R114). A lit lamp has no blink timer. -/
def lampOn (s : State) : State :=
  if s.clips.tallyMode = .auto then { s with clips := { s.clips with lamp := .lit, blinkTimer := none } }
  else s

/-- A listed mark starts the tally blink: in AUTO, while the lamp is LIT and the blink time is not 0
(R114). -/
def startBlink (s : State) : State :=
  if s.clips.tallyMode = .auto ∧ s.clips.lamp = .lit ∧ s.clips.blinkTime ≠ 0 then
    { s with clips := { s.clips with lamp := .blink, blinkTimer := some s.clips.blinkTime } }
  else s

/-- The tally output: on in LIT, off in DARK and BLINK (R158). -/
def tallyOutput (s : State) : Bool := s.clips.lamp == .lit

/-! ## Following the clip's entries -/

/-- What a placed piece adds to a clip's counts of its stream (R103). -/
def addPiece (e : Entry) (n : Counts) : Counts where
  entries := countUp countMax n.entries 1
  repeats := if e.kind = .repeated then countUp countMax n.repeats 1 else n.repeats
  gaps := if e.kind = .gap then countUp countMax n.gaps e.count else n.gaps
  oversize := if e.oversize then countUp 65535 n.oversize 1 else n.oversize
  unlocked := if e.unlocked then countUp countMax n.unlocked 1 else n.unlocked
  oversizePast := if e.oversize ∧ 65535 ≤ n.oversize then n.oversizePast + 1 else n.oversizePast

/-- What a break that removes an entry takes back from the counts: what R103 added for it (R105). The entries
removed are the last that were reported, so an OVERSIZE entry takes nothing back while pieces stand past the
maximum of the count (log entry 41). -/
def takeBackPiece (e : Entry) (n : Counts) : Counts where
  entries := n.entries - 1
  repeats := if e.kind = .repeated then n.repeats - 1 else n.repeats
  gaps := if e.kind = .gap then n.gaps - e.count else n.gaps
  oversize := if e.oversize ∧ n.oversizePast = 0 then n.oversize - 1 else n.oversize
  unlocked := if e.unlocked then n.unlocked - 1 else n.unlocked
  oversizePast := if e.oversize then n.oversizePast - 1 else n.oversizePast

/-- What a report of a placed piece does to its clip's record (R103, R104). -/
def pieceReported (st : Stream) (e : Entry) (c : Clip) : Clip :=
  { c with
    start := c.start.or (some e.label)
    reach := c.reach.set (frameAfter e.frame e.count) st
    counts := c.counts.set (addPiece e (c.counts.get st)) st }

/-! ## Trailers -/

/-- The trailer of a clip for a stream (R107). A clip for which no piece was reported carries 00:00:00:00
with the flag clear (R104). -/
def makeTrailer (s : State) (c : Clip) (closing : Closing) (st : Stream) : Entry where
  kind := .trailer
  stream := st
  frame := c.first
  count := c.marks.length
  label := c.start.getD ⟨0, 0, 0, 0, false⟩
  clip := some c.number
  size := 64 + 8 * c.marks.length
  preroll := false
  unlocked := false
  oversize := false
  step := 0
  attempt := 0
  phase := 0
  payload := .trailer
    { last := closing.last
      reason := closing.reason
      lostMarks := c.lostMarks
      counts := c.counts.get st
      overrunDelta := (((s.governor.overruns : Int) - c.overrunMark) % (2 ^ 32 : Nat)).toNat
      repeatDelta := (((s.governor.repeats : Int) - c.repeatMark) % (2 ^ 32 : Nat)).toNat
      marks := c.marks }

/-- `e` placed directly after the last entry that satisfies `p`, if one does. -/
def insertAfterLast (p : Entry → Bool) (e : Entry) : List Entry → Option (List Entry)
  | [] => none
  | a :: rest =>
    match insertAfterLast p e rest with
    | some placed => some (a :: placed)
    | none => if p a then some (a :: e :: rest) else none

/-- The entry belongs to a clip of the table with a lower F than `c`. -/
def ofEarlierClip (s : State) (c : Clip) (e : Entry) : Bool :=
  s.clipList.any fun d => isBelow d.first c.first && e.clip == some d.number

/-- A queue with a trailer in its place: after the last entry of its clip, else after the last entry or
trailer of an earlier clip, else at the front (R88). -/
def placeTrailer (s : State) (c : Clip) (trailer : Entry) (entries : List Entry) : List Entry :=
  (insertAfterLast (fun e => e.clip == some c.number) trailer entries).getD
    ((insertAfterLast (ofEarlierClip s c) trailer entries).getD (trailer :: entries))

/-- The trailer condition: CLOSING, trailers not yet queued, and the reach of both streams L + 1 (R106). -/
def trailerDue (c : Clip) : Option Closing :=
  c.closing.filter fun closing =>
    !c.queued.master && !c.queued.proxy
      && c.reach.master == closing.last + 1 && c.reach.proxy == closing.last + 1

/-- Both trailers of a clip are made and placed, and its trailer-queued flags are set (R106). -/
def queueTrailers (c : Clip) (closing : Closing) (s : State) : State :=
  let placed := fun st => placeTrailer s c (makeTrailer s c closing st) (s.entries st)
  changeClip c.number (fun d => { d with queued := ⟨true, true⟩ })
    (putQueue .proxy (placed .proxy) (putQueue .master (placed .master) s))

/-- The trailer condition of the clip with a number is tested (R106). -/
def testTrailers (number : Nat) (s : State) : State :=
  match s.clipNumbered number with
  | none => s
  | some c =>
    match trailerDue c with
    | none => s
    | some closing => queueTrailers c closing s

/-- The Queue Manager tells Clip Control of a committed piece placed for a clip (R103, R104, R106). -/
def reportPiece (number : Nat) (st : Stream) (e : Entry) (s : State) : State :=
  testTrailers number (changeClip number (pieceReported st e) s)

/-- A trailer of a stream has been written and removed: its flag is set, and the clip is retired once both
are (R108). -/
def trailerWritten (number : Nat) (st : Stream) (s : State) : State :=
  let flagged := changeClip number (fun c => { c with written := c.written.set true st }) s
  match flagged.clipNumbered number with
  | none => flagged
  | some c =>
    if c.written.master && c.written.proxy then
      clipEvent .retired number (freeClip number flagged)
    else flagged

/-! ## Marks -/

/-- Where a mark request went (R109). -/
inductive MarkPlace where
  | clip (number : Nat)
  | held
  | clipLost (number : Nat)
  | heldLost
  deriving DecidableEq, Repr

/-- The frame of a mark (R109): the most recent start, replaced by F while a clip is RECORDING and it is
none or lies below F. -/
def markFrame (s : State) (c : Clip) : Frame :=
  match s.clips.recentStart with
  | none => c.first
  | some x => raiseTo c.first x

/-- Where a mark request goes (R110, R111). -/
def markPlace (s : State) : MarkPlace :=
  match s.recording with
  | some c => if c.marks.length < 32 then .clip c.number else .clipLost c.number
  | none =>
    match s.clips.recentStart with
    | none => .heldLost
    | some x => if s.prerollOn && !isBelow x s.queue.agingLine then .held else .heldLost

/-- A mark enters a mark list: MARK is raised and the tally blink starts (R109). -/
def markListed (s : State) : State := startBlink (raise .mark s)

/-- A mark joins the held-mark list; of 8 marks the oldest is removed and counted lost (R111). -/
def holdMark (m : Mark) (s : State) : State :=
  if s.clips.held.length < 8 then
    { s with clips := { s.clips with held := s.clips.held ++ [m] } }
  else
    { s with clips := { s.clips with
        held := s.clips.held.tail ++ [m]
        heldLost := countUp countMax s.clips.heldLost 1 } }

/-- Clip Control takes a mark request (R109 to R111). -/
def takeMark (kind : MarkKind) (source : Source) (s : State) : State :=
  match markPlace s with
  | .clip number =>
    markListed (changeClip number
      (fun c => { c with marks := c.marks ++ [⟨markFrame s c, kind, source⟩] }) s)
  | .clipLost number =>
    changeClip number (fun c => { c with lostMarks := countUp 255 c.lostMarks 1 }) s
  | .held => markListed (holdMark ⟨s.clips.recentStart.getD 0, kind, source⟩ s)
  | .heldLost =>
    { s with clips := { s.clips with heldLost := countUp countMax s.clips.heldLost 1 } }

end Sys2Proof.Machine
end

