-- ==== Sys2Proof/Machine/Joins.lean ====
section
/-! DEFINITION. Joining a queue, byte and index pressure, and breaks (sections 5.2, 5.5, 6.6). -/

namespace Sys2Proof.Machine

/-! ## Classification -/

/-- What a frame of an entry is classed as (R74). -/
inductive FrameClass where
  | committed (clip : Nat)
  | held
  | dropped
  deriving DecidableEq, Repr

/-- The class of a frame (R74). A frame of a broken clip above the frames that the break removed is held where
pre-roll is on, as R74 and R86 give; R92's row for a break taken before a join says dropped (log entry 42). -/
def classify (s : State) (x : Frame) : FrameClass :=
  match s.clipList.find? fun c => c.covers x with
  | some c => .committed c.number
  | none => if s.prerollOn && !isBelow x s.queue.agingLine then .held else .dropped

/-- A run of consecutive frames of one class: how far into the entry it begins, and its frames. -/
structure Run where
  cls : FrameClass
  offset : Nat
  count : Nat
  deriving DecidableEq, Repr

/-- A frame at an offset joins the latest run, or begins a run; the latest run stands first. -/
def addToRuns (cls : FrameClass) (offset : Nat) : List Run → List Run
  | [] => [⟨cls, offset, 1⟩]
  | r :: rest =>
    if r.cls = cls then { r with count := r.count + 1 } :: rest else ⟨cls, offset, 1⟩ :: r :: rest

/-- The runs of an entry's frames, in frame order (R74). -/
def classRuns (s : State) (e : Entry) : List Run :=
  ((List.range e.count).foldl
    (fun runs i => addToRuns (classify s (frameAfter e.frame i)) i runs) []).reverse

/-- The piece of an entry that a run is (R74). -/
def pieceOf (r : Rate) (e : Entry) (run : Run) : Entry :=
  { e with
    frame := frameAfter e.frame run.offset
    count := run.count
    label := labelAfter r run.offset e.label }

/-! ## Breaks -/

/-- The entry is one of a clip's that a break may act on: no trailer is (R88). -/
def brokenClips (number : Nat) (e : Entry) : Bool := e.clip == some number && e.kind != .trailer

/-- What becomes of an entry when the clip breaks at `x`: removed if it covers only frames at or above x,
a GAP cut to the frames below x if it covers both (R86). -/
def brokenEntry (number : Nat) (x : Frame) (e : Entry) : Option Entry :=
  if !brokenClips number e || e.allBelow x then some e
  else if isBelow e.frame x then some { e with count := (x - e.frame).toNat }
  else none

/-- The counts of a stream after taking back what an entry had added to them, where the break removes or
cuts it (R105). -/
def takeBack (number : Nat) (x : Frame) (n : Counts) (e : Entry) : Counts :=
  if !brokenClips number e || e.allBelow x then n
  else if isBelow e.frame x then { n with gaps := n.gaps - (e.count - (x - e.frame).toNat) }
  else takeBackPiece e n

/-- The newest frame dropped or removed so far, with an entry that the break may remove or cut (R86). -/
def newestBroken (number : Nat) (x newest : Frame) (e : Entry) : Frame :=
  if !brokenClips number e || e.allBelow x then newest else raiseTo e.last newest

/-- A clip's record after a break at `x` (R105). -/
def brokenRecord (s : State) (x : Frame) (reason : CloseReason) (c : Clip) : Clip :=
  let kept := c.marks.filter fun m => !isBelow (x - 1) m.frame
  { c with
    closing := some ⟨x - 1, reason⟩
    counts := c.counts.map fun st n => (s.entries st).foldl (takeBack c.number x) n
    reach := c.reach.map fun _ reached => if isBelow x reached then x else reached
    marks := kept
    lostMarks := countUp 255 c.lostMarks (c.marks.length - kept.length) }

/-- The break reason: INDEX_FULL for the cause INDEX, and otherwise by the failing stream (R86). -/
def breakReason (index : Bool) (st : Stream) : CloseReason :=
  if index then .brokenIndexFull
  else match st with
    | .master => .brokenMasterFull
    | .proxy => .brokenProxyFull

/-- What the break does to Clip Control apart from the clip's record: the roll floor, the QUEUE_FULL fault,
the CLIP notice and the lamp (R105). -/
def breakReported (number : Nat) (x : Frame) (st : Stream) (wasRecording : Bool) (s : State) : State :=
  let floored := raiseFloor x s
  let faulted := reportFault ⟨.queueFull, .clipControl, none, some x, some st⟩ floored
  let told := clipEvent .broken number faulted
  if wasRecording then lampOut told else told

/-- A committed piece that cannot be placed breaks its clip (R86, R105). -/
def breakClip (number : Nat) (index : Bool) (piece : Entry) (s : State) : State :=
  let x := piece.frame
  let wasRecording := (s.recording.map Clip.number) == some number
  let newest := fun st from_ => (s.entries st).foldl (newestBroken number x) from_
  let line := newest .proxy (newest .master piece.last) + 1
  let left := fun st => (s.entries st).filterMap (brokenEntry number x)
  let recorded := changeClip number (brokenRecord s x (breakReason index piece.stream)) s
  let removed := putQueue .proxy (left .proxy) (putQueue .master (left .master) recorded)
  let reported := breakReported number x piece.stream wasRecording removed
  testTrailers number (setAging (raiseTo line reported.queue.agingLine) reported)

/-! ## Pressure and placing -/

/-- The oldest held frame of either queue (R83). -/
def oldestHeld (s : State) : Option Frame :=
  match firstHeld (s.entries .master), firstHeld (s.entries .proxy) with
  | some a, some b => some (if isBelow b.frame a.frame then b.frame else a.frame)
  | some a, none => some a.frame
  | none, some b => some b.frame
  | none, none => none

/-- Step 1 of the pressure procedure: while an entry of `size` bytes does not fit and a held frame of
either queue lies below `first`, the oldest is aged out (R83). Each round ages one frame; `fuel` bounds
the rounds. -/
def ageForRoom (st : Stream) (size : Nat) (first : Frame) : Nat → State → State
  | 0, s => s
  | fuel + 1, s =>
    if fits st (s.entries st) size then s
    else match oldestHeld s with
      | none => s
      | some g => if isBelow g first then ageForRoom st size first fuel (setAging (g + 1) s) else s

/-- Step 1 for a piece (R83). -/
def makeRoom (piece : Entry) (s : State) : State :=
  ageForRoom piece.stream piece.size piece.frame
    (heldFrames (s.entries .master) + heldFrames (s.entries .proxy)) s

/-- A committed piece is placed at the tail and reported to Clip Control (R75). -/
def placeCommitted (number : Nat) (piece : Entry) (s : State) : State :=
  let placed := { piece with clip := some number, preroll := false }
  reportPiece number piece.stream placed
    (putQueue piece.stream (s.entries piece.stream ++ [placed]) s)

/-- A held piece is placed at the tail; after a master piece the pre-roll limit is enforced (R76, R81). -/
def placeHeld (piece : Entry) (s : State) : State :=
  let held := { piece with clip := none, preroll := false }
  let placed := putQueue piece.stream (s.entries piece.stream ++ [held]) s
  match piece.stream with
  | .master => enforceLimit placed
  | .proxy => placed

/-- The REPEAT entry that replaces a committed proxy CODED entry (R85). -/
def substitute (e : Entry) : Entry :=
  { e with kind := .repeated, count := 1, size := 32, oversize := false, step := 0, attempt := 0, payload := .none }

/-- Steps 3 and 4 of the pressure procedure: replace a proxy picture, or break the clip (R85, R86). -/
def replaceOrBreak (number : Nat) (index : Bool) (piece : Entry) (s : State) : State :=
  if piece.stream = .proxy ∧ piece.kind = .coded ∧ index = false then
    if fits .proxy (s.entries .proxy) (substitute piece).size then
      placeCommitted number (substitute piece) s
    else breakClip number index (substitute piece) s
  else breakClip number index piece s

/-- A piece committed to a clip is settled (R75, R82). -/
def settleCommitted (number : Nat) (piece : Entry) (s : State) : State :=
  let index := indexFull (s.entries piece.stream)
  let aged := makeRoom piece s
  if fits piece.stream (aged.entries piece.stream) piece.size then placeCommitted number piece aged
  else replaceOrBreak number index piece aged

/-- A held piece is settled: placed, or dropped with the aging line moved past it (R76, R82, R84). -/
def settleHeld (piece : Entry) (s : State) : State :=
  let aged := makeRoom piece s
  if fits piece.stream (aged.entries piece.stream) piece.size then placeHeld piece aged
  else setAging (frameAfter piece.frame piece.count) aged

/-- A piece is settled by its class (R75 to R77). -/
def settlePiece (cls : FrameClass) (piece : Entry) (s : State) : State :=
  match cls with
  | .committed number => settleCommitted number piece s
  | .held => settleHeld piece s
  | .dropped => s

/-- The intake mark of an entry's stream becomes the frame after the last it covers (R74). -/
def markIntake (e : Entry) (s : State) : State :=
  { s with queue := { s.queue with
      intakeMarks := s.queue.intakeMarks.set (some (frameAfter e.frame e.count)) e.stream } }

/-- An entry that a coder hands over joins its queue: the intake mark is set, its frames are classified,
and its pieces are settled one after another in frame order (R74). -/
def join (e : Entry) (s : State) : State :=
  let marked := markIntake e s
  (classRuns marked e).foldl (fun t run => settlePiece run.cls (pieceOf t.rate e run) t) marked

end Sys2Proof.Machine
end

