-- ==== Sys2Proof/Machine/Pixels.lean ====
section
/-! DEFINITION. Pictures: the check sum of a line, tiles and their activity and steps (sections 1.1, 2.3),
the Scaler and the Look Stage (sections 3.6, 3.7). -/

namespace Sys2Proof.Machine

/-- The check sum of a line: every sample, luma and chroma alike, modulo 65,536 (R1). -/
def checkSum (pixels : List Pixel) : BitVec 16 :=
  BitVec.ofNat 16 (pixels.map fun p => p.luma.toNat + p.chroma.toNat).sum

/-! ## Tiles -/

/-- The sum of the absolute differences of neighbouring luma samples within one line of a tile. -/
def lineActivity : List Nat → Nat
  | a :: b :: rest => (max a b - min a b) + lineActivity (b :: rest)
  | _ => 0

/-- The activity index of a tile given by the luma samples of its lines (R23). -/
def activityIndex (rows : List (List Nat)) : Nat :=
  min ((rows.map lineActivity).sum / (16 * (rows.map fun r => r.length - 1).sum)) 63

/-- The luma samples of the tile in one column and row of tiles: 128 pixels by 64 lines, or what the
picture has of them at its right and bottom edges (R23). -/
def tileLuma (picture : List (List Pixel)) (row column : Nat) : List (List Nat) :=
  ((picture.drop (64 * row)).take 64).map fun line =>
    ((line.drop (128 * column)).take 128).map fun p => p.luma.toNat

/-- The activity indices of a picture's tiles, row by row from the top left corner (R23). -/
def activityIndices (width height : Nat) (picture : List (List Pixel)) : List Nat :=
  (List.range ((height + 63) / 64)).flatMap fun row =>
    (List.range ((width + 127) / 128)).map fun column => activityIndex (tileLuma picture row column)

/-- The tile step of a tile with an activity index: the picture step plus its class's offset, limited to
1–63, or the picture step under the neutral source (R24). -/
def tileStep (source : Option (List Nat)) (offsets : List Int) (step index : Nat) : Nat :=
  match source with
  | none => step
  | some table => (clampInt 1 63 (step + offsets.getD (table.getD index 0) 0)).toNat

/-! ## The Scaler -/

/-- The columns, or lines, of the window of proxy column, or line, `k`: the block of `f`, extended by one
on each side under LONG and cut to the `size` that exist (R41). -/
def windowSpan (filter : Filter) (f size k : Nat) : List Nat :=
  match filter with
  | .short => (List.range f).map (f * k + ·)
  | .long => (List.range (min (f * k + f + 1) size - (f * k - 1))).map (f * k - 1 + ·)

/-- The pixel at column `x` of line `y`. -/
def pixelAt (picture : List (List Pixel)) (x y : Nat) : Pixel := (picture.getD y []).getD x ⟨0, 0⟩

/-- The mean of a window's samples, the half rounded up (R41). -/
def windowMean (samples : List Nat) : Nat := (samples.sum + samples.length / 2) / samples.length

/-- The window of a proxy pixel, as (column, line) pairs. -/
def windowOf (g : Geometry) (filter : Filter) (x y : Nat) : List (Nat × Nat) :=
  (windowSpan filter g.factor g.height y).flatMap fun line =>
    (windowSpan filter g.factor g.width x).map fun column => (column, line)

/-- The proxy pixel (x, y) before the Look Stage: the luma mean, and the Cb mean for even x or the Cr mean
for odd x, each source pixel giving the Cb or Cr of its pair (R41). -/
def scaledPixel (g : Geometry) (filter : Filter) (picture : List (List Pixel)) (x y : Nat) : Pixel :=
  let window := windowOf g filter x y
  let luma := windowMean (window.map fun c => (pixelAt picture c.1 c.2).luma.toNat)
  let chroma := windowMean (window.map fun c => (pixelAt picture (2 * (c.1 / 2) + x % 2) c.2).chroma.toNat)
  ⟨BitVec.ofNat 12 luma, BitVec.ofNat 12 chroma⟩

/-! ## The Look Stage -/

/-- The look curve's output for a luma value (R42). -/
def curveOutput (points : List Nat) (v : Nat) : Nat :=
  let i := v / 128
  let u := v - 128 * i
  points.getD i 0 + ((points.getD (i + 1) 0 - points.getD i 0) * u + 64) / 128

/-- The Look Stage's output: the curve's, or the luma value itself under pass-through (R42). -/
def lookOutput (curve : Option (List Nat)) (v : Nat) : Nat :=
  match curve with
  | none => v
  | some points => curveOutput points v

/-- The proxy pixel (x, y) as it reaches the Proxy Coder: scaled, its luma mapped, its chroma unchanged
(R41, R42). -/
def proxyPixel (g : Geometry) (filter : Filter) (curve : Option (List Nat)) (picture : List (List Pixel))
    (x y : Nat) : Pixel :=
  let p := scaledPixel g filter picture x y
  { p with luma := BitVec.ofNat 12 (lookOutput curve p.luma.toNat) }

/-- The proxy picture that the Proxy Coder codes, line by line (R41 to R43). -/
def proxyPixels (g : Geometry) (filter : Filter) (curve : Option (List Nat)) (picture : List (List Pixel)) :
    List (List Pixel) :=
  (List.range (g.height / g.factor)).map fun y =>
    (List.range (g.width / g.factor)).map fun x => proxyPixel g filter curve picture x y

end Sys2Proof.Machine
end

