-- ==== Sys2Proof/Machine/Coders.lean ====
section
/-! DEFINITION. The Slot Pool, the input lists, and the two coders (sections 1.5, 1.8, chapters 2, 3). -/

namespace Sys2Proof.Machine

/-! ## Slots -/

/-- The lowest-numbered FREE slot (R7). -/
def State.freeSlot (s : State) : Option Nat := firstIndex (fun slot => slot.state == .free) s.slots

/-- The lines held in a slot. -/
def State.slotLines (s : State) (slot : Nat) : List (List Pixel) := (s.slots.getD slot Slot.empty).lines

/-- Slot `slot` becomes `value`. -/
def putSlot (slot : Nat) (value : Slot) (s : State) : State :=
  { s with slots := changeAt (fun _ => value) slot s.slots }

/-- A coder's release of a READY slot: the count goes down by one, and at 0 the slot is FREE (R8). -/
def releasedSlot (slot : Slot) : Slot :=
  if slot.state = .ready then
    if slot.refs ≤ 1 then Slot.empty else { slot with refs := slot.refs - 1 }
  else slot

/-- A coder releases a slot (R8). -/
def releaseSlot (slot : Nat) (s : State) : State := { s with slots := changeAt releasedSlot slot s.slots }

/-! ## Input lists -/

/-- A gap for frame `g` with its label recorded in one input list (R14). A token already at the largest count
of section 1.8 grows on (log entry 36). -/
def recordGapIn (g : Frame) (label : Label) (list : List Item) : List Item :=
  match list.getLast? with
  | some (.gap first count l) =>
    if frameAfter first count = g then list.dropLast ++ [.gap first (count + 1) l]
    else list ++ [.gap g 1 label]
  | _ => list ++ [.gap g 1 label]

/-- A gap recorded in both input lists, each separately (R14). -/
def recordGap (g : Frame) (label : Label) (s : State) : State :=
  { s with inputs := s.inputs.map fun _ list => recordGapIn g label list }

/-- A slot item appended to both input lists (R12). -/
def appendSlotItem (item : SlotItem) (s : State) : State :=
  { s with inputs := s.inputs.map fun _ list => list ++ [.slot item] }

/-! ## Entries the coders make -/

/-- The GAP entry of a piece of a gap token (R21, R36). -/
def gapEntry (st : Stream) (first : Frame) (count : Nat) (label : Label) : Entry where
  kind := .gap
  stream := st
  frame := first
  count := count
  label := label
  clip := none
  size := 32
  preroll := false
  unlocked := false
  oversize := false
  step := 0
  attempt := 0
  phase := 0
  payload := .none

/-- The CODED entry of a slot item (R28, R44). -/
def codedEntry (st : Stream) (item : SlotItem) (size step attempt : Nat) (oversize : Bool) (tag : Nat) : Entry where
  kind := .coded
  stream := st
  frame := item.frame
  count := 1
  label := item.label
  clip := none
  size := size
  preroll := false
  unlocked := item.unlocked
  oversize := oversize
  step := step
  attempt := attempt
  phase := item.phase
  payload := .coded tag

/-- The REPEAT entry of a slot item (R38). -/
def repeatEntry (item : SlotItem) : Entry :=
  { codedEntry .proxy item 32 0 0 false 0 with kind := .repeated, payload := .none }

/-- The GAP entries of a gap token, cut into pieces of at most 65,535 frames and handed over in frame
order (R21, R36). Each round makes one piece; `fuel` bounds the rounds. -/
def handGaps (st : Stream) : Nat → Frame → Nat → Label → State → State
  | 0, _, _, _, s => s
  | fuel + 1, first, count, label, s =>
    if count = 0 then s
    else
      let piece := min count 65535
      handGaps st fuel (frameAfter first piece) (count - piece) (labelAfter s.rate piece label)
        (join (gapEntry st first piece label) s)

/-- A gap token turned into GAP entries at once (R21, R36). -/
def handToken (st : Stream) (first : Frame) (count : Nat) (label : Label) (s : State) : State :=
  handGaps st (count / 65535 + 1) first count label s

/-! ## The Master Coder -/

/-- The tile steps of an attempt at a picture step (R24). -/
def tileStepsOf (source : Option (List Nat)) (offsets : List Int) (step : Nat) (indices : List Nat) : List Nat :=
  indices.map fun index => tileStep source offsets step index

/-- The classification source of a picture that begins: the table's contents if READY, neutral if not
(R22). -/
def classificationSource (m : MasterCoder) : Option (List Nat) :=
  match m.tableState with
  | .ready => some m.table
  | .initialising => none

/-- The geometry that a picture copies at its beginning (R22, R39). No picture begins before a SETUP. -/
def State.pictureGeometry (s : State) : Geometry := s.intake.geometry.getD ⟨0, 0, 1, 1⟩

/-- A master picture at its beginning: everything that governs it is copied, its activity indices are
measured, and its first attempt is at Qm (R22, R23, R25). -/
def newMasterPicture (item : SlotItem) (s : State) : MasterPicture :=
  let g := s.pictureGeometry
  let indices := activityIndices g.width g.height (s.slotLines item.slot)
  { item := item
    width := g.width
    height := g.height
    settings := s.master.settings
    source := classificationSource s.master
    indices := indices
    attempt := 1
    step := s.master.settings.step
    tileSteps :=
      tileStepsOf (classificationSource s.master) s.master.settings.offsets s.master.settings.step indices
    latest := none }

/-- A master picture begins (R22). -/
def beginMaster (item : SlotItem) (s : State) : State :=
  { s with master := { s.master with picture := some (newMasterPicture item s) } }

/-- The Master Coder, while IDLE, takes items from the front of its list until it is CODING or the list is
empty (R20). Each round takes one item; `fuel` bounds the rounds. -/
def runMaster : Nat → State → State
  | 0, s => s
  | fuel + 1, s =>
    if s.master.picture.isSome then s
    else match s.inputs.master with
      | [] => s
      | .slot item :: rest => beginMaster item { s with inputs := { s.inputs with master := rest } }
      | .gap first count label :: rest =>
        runMaster fuel (handToken .master first count label { s with inputs := { s.inputs with master := rest } })

/-- The coded size of an attempt: its payload, from 1 to the raw size, plus 32 (R25). -/
def masterSize (p : MasterPicture) (payload : Nat) : Nat := clamp 1 (p.width * p.height * 3) payload + 32

/-- The attempt exceeds the cap (R25). -/
def exceedsCap (p : MasterPicture) (size : Nat) : Bool :=
  p.settings.cap != 0 && decide (p.settings.cap * 1024 < size)

/-- The step of a further attempt, if one is made (R26). -/
def nextAttemptStep (p : MasterPicture) : Option Nat :=
  let step :=
    if p.attempt = 1 then some (min (p.settings.step + 4) 63)
    else if p.attempt = 2 then some (min (p.settings.step + 8) 63)
    else none
  step.filter fun q => q != p.step

/-- A coarser attempt begins (R26). -/
def beginAttempt (p : MasterPicture) (step size tag : Nat) : MasterPicture :=
  { p with
    attempt := p.attempt + 1
    step := step
    tileSteps := tileStepsOf p.source p.settings.offsets step p.indices
    latest := some (p.step, size, tag) }

/-- A master picture is complete: its entry is handed over, its slot released, and the coder, IDLE, goes
on with its list (R27, R28). -/
def completeMaster (p : MasterPicture) (size tag : Nat) (s : State) : State :=
  let entry := codedEntry .master p.item size p.step p.attempt (exceedsCap p size) tag
  let released := releaseSlot p.item.slot (join entry s)
  let idle := { released with master := { released.master with picture := none } }
  runMaster (idle.inputs.master.length + 1) idle

/-- A master attempt ends with a payload of a given length (R25 to R28). The coding takes a tag of its own
for its bytes. -/
def endAttempt (payload : Nat) (s : State) : State :=
  match s.master.picture with
  | none => s
  | some p =>
    let size := masterSize p payload
    let tagged := { s with freeTag := s.freeTag + 1 }
    if exceedsCap p size then
      match nextAttemptStep p with
      | some step =>
        { tagged with master := { s.master with picture := some (beginAttempt p step size s.freeTag) } }
      | none => completeMaster p size s.freeTag tagged
    else completeMaster p size s.freeTag tagged

/-! ## The Proxy Path -/

/-- The luma source of a picture that begins: the curve's points if READY, pass-through if not (R39). -/
def lumaSource (p : ProxyPath) : Option (List Nat) :=
  match p.curveState with
  | .ready => some p.curve
  | .initialising => none

/-- A proxy picture at its beginning at step `q`: everything that governs it is copied, and the picture is
scaled and mapped for the Proxy Coder (R39, R41, R42). -/
def newProxyPicture (item : SlotItem) (q : Nat) (s : State) : ProxyPicture :=
  let g := s.pictureGeometry
  { item := item
    geometry := g
    filter := s.proxy.filter
    step := q
    curve := lumaSource s.proxy
    pixels := proxyPixels g s.proxy.filter (lumaSource s.proxy) (s.slotLines item.slot) }

/-- A proxy picture begins (R39). -/
def beginProxy (item : SlotItem) (q : Nat) (s : State) : State :=
  { s with proxy := { s.proxy with picture := some (newProxyPicture item q s) } }

/-- A slot item is put to the governor, which answers and keeps its books, and is made a REPEAT entry or
begun (R37 to R39). -/
def takeProxyItem (item : SlotItem) (s : State) : State :=
  let decided := { s with governor := afterDecision s.rate s.governor }
  match decision s.rate s.governor with
  | .repeatPicture => releaseSlot item.slot (join (repeatEntry item) decided)
  | .code q => beginProxy item q decided

/-- The Proxy Path, while IDLE, takes items from the front of its list until it is CODING or the list is
empty (R35). Each round takes one item; `fuel` bounds the rounds. -/
def runProxy : Nat → State → State
  | 0, s => s
  | fuel + 1, s =>
    if s.proxy.picture.isSome then s
    else match s.inputs.proxy with
      | [] => s
      | .slot item :: rest =>
        runProxy fuel (takeProxyItem item { s with inputs := { s.inputs with proxy := rest } })
      | .gap first count label :: rest =>
        runProxy fuel (handToken .proxy first count label { s with inputs := { s.inputs with proxy := rest } })

/-- The coded size of a proxy picture: its payload, from 1 to Wp×Hp×3, plus 32 (R43). -/
def proxySize (p : ProxyPicture) (payload : Nat) : Nat :=
  clamp 1 ((p.geometry.width / p.geometry.factor) * (p.geometry.height / p.geometry.factor) * 3) payload + 32

/-- Proxy coding ends with a payload of a given length: S goes to the governor and the entry to the Queue
Manager, the slot is released, and the path, IDLE, goes on with its list (R44). The governor has counted S
before the entry joins its queue (R44, R84; log entry 23). -/
def endProxyCoding (payload : Nat) (s : State) : State :=
  match s.proxy.picture with
  | none => s
  | some p =>
    let size := proxySize p payload
    let entry := codedEntry .proxy p.item size p.step 1 false s.freeTag
    let charged := { s with freeTag := s.freeTag + 1, governor := afterCompletion size s.governor }
    let released := releaseSlot p.item.slot (join entry charged)
    let idle := { released with proxy := { released.proxy with picture := none } }
    runProxy (idle.inputs.proxy.length + 1) idle

/-- Both coders go on with their lists, each if it is IDLE (R20, R35). -/
def runCoders (s : State) : State :=
  let first := runMaster (s.inputs.master.length + 1) s
  runProxy (first.inputs.proxy.length + 1) first

/-- Intake is drained: no frame in arrival, every slot FREE, both lists empty, both coders with no picture
in hand (R6). -/
def State.isDrained (s : State) : Bool :=
  s.intake.arrival.isNone && s.slots.all (fun slot => slot.state == .free)
    && s.inputs.master.isEmpty && s.inputs.proxy.isEmpty
    && s.master.picture.isNone && s.proxy.picture.isNone

end Sys2Proof.Machine
end

