-- ==== Sys2Proof/Machine/Operands.lean ====
section
/-! DEFINITION. Reading the fields of a directive block from its fetched copy, at the offsets of sections
11.1 and 11.2 (R190), and the outcome codes of R164. -/

namespace Sys2Proof.Machine

/-! ## Fields -/

/-- The byte at an offset of the block, header and body together. -/
def Block.byteAt (b : Block) (offset : Nat) : Byte := (b.header ++ b.body).getD offset 0

/-- The byte at an offset as a number. -/
def Block.u8 (b : Block) (offset : Nat) : Nat := (b.byteAt offset).toNat

/-- The byte at an offset as a signed number. -/
def Block.i8 (b : Block) (offset : Nat) : Int := signedByte (b.byteAt offset)

/-- A little-endian field of `size` bytes at an offset. -/
def Block.field (b : Block) (offset size : Nat) : Nat :=
  leValue ((List.range size).map fun k => b.byteAt (offset + k))

/-- The block's flags: LAST, HALT_AFTER, NOTICE_AFTER, STOP_ON_REFUSAL in bits 0 to 3 (section 11.1). -/
def Block.flag (b : Block) (position : Nat) : Bool := (b.byteAt 1).getLsbD position

/-- The next address, the 64-bit field whole (section 11.1). -/
def Block.nextAddress (b : Block) : Nat := b.field 8 8

/-- The host tag (section 11.1). -/
def Block.hostTag (b : Block) : BitVec 32 := BitVec.ofNat 32 (b.field 4 4)

/-- The length field in 32-byte units (section 11.1). -/
def Block.units (b : Block) : Nat := b.u8 2

/-! ## Kinds -/

/-- The thirteen kinds of directive (R162). -/
inductive DirectiveKind where
  | setup
  | tune
  | lines
  | loadTable
  | grant
  | relinquish
  | startIntake
  | stopIntake
  | roll
  | cut
  | mark
  | setTimecode
  | wait
  deriving DecidableEq, Repr

/-- The kind of a code (R162). -/
def kindOfCode : Nat → Option DirectiveKind
  | 1 => some .setup
  | 2 => some .tune
  | 3 => some .lines
  | 4 => some .loadTable
  | 5 => some .grant
  | 6 => some .relinquish
  | 7 => some .startIntake
  | 8 => some .stopIntake
  | 9 => some .roll
  | 10 => some .cut
  | 11 => some .mark
  | 12 => some .setTimecode
  | 13 => some .wait
  | _ => none

/-- The kind of a block. -/
def Block.kind (b : Block) : Option DirectiveKind := kindOfCode (b.u8 0)

/-- The length is the one the kind requires (R162). -/
def lengthFits (kind : DirectiveKind) (units : Nat) : Bool :=
  match kind with
  | .tune => units == 3
  | .grant => decide (3 ≤ units ∧ units ≤ 10)
  | .startIntake | .stopIntake | .roll | .cut => units == 1
  | .setup | .lines | .loadTable | .relinquish | .mark | .setTimecode | .wait => units == 2

/-! ## Outcomes -/

/-- The outcomes that the part writes (R164). -/
inductive Verdict where
  | done
  | doneAdjusted
  | partly
  | already
  | cancelled
  | abandoned
  | badKind
  | badLength
  | busy
  | geometry
  | rate
  | range
  | noSetup
  | notRunning
  | tableFull
  deriving DecidableEq, Repr

/-- The outcome code (R164). -/
def Verdict.code : Verdict → Nat
  | .done => 1
  | .doneAdjusted => 2
  | .partly => 3
  | .already => 4
  | .cancelled => 5
  | .abandoned => 6
  | .badKind => 7
  | .badLength => 8
  | .busy => 9
  | .geometry => 10
  | .rate => 11
  | .range => 12
  | .noSetup => 13
  | .notRunning => 14
  | .tableFull => 15

/-- An outcome code is a refusal (R164). -/
def isRefusal (code : Nat) : Bool := decide (7 ≤ code)

/-- DONE with detail 0 where nothing was adjusted, DONE_ADJUSTED with the count otherwise (R32, R48,
R173). -/
def doneVerdict (adjusted : Nat) : Verdict := if adjusted = 0 then .done else .doneAdjusted

/-! ## The fields of each kind -/

/-- SETUP's fields (section 11.1). -/
structure SetupFields where
  width : Nat
  height : Nat
  factor : Nat
  code : Nat
  filter : Nat
  page : Nat
  deriving DecidableEq, Repr

/-- SETUP's fields read from the block. -/
def Block.setupFields (b : Block) : SetupFields where
  width := b.field 32 2
  height := b.field 34 2
  factor := b.u8 36
  code := b.u8 37
  filter := b.u8 38
  page := b.field 40 8

/-- TUNE's 25 fields as given (section 11.1). -/
structure TuneFields where
  qm : Nat
  cap : Nat
  offsets : List Int
  governor : GovernorFields
  depth : Nat
  highMark : Nat
  tally : Nat
  blink : Nat
  watermark : Nat
  retry : Nat
  gapTime : Nat
  priorities : List Nat
  tolerance : Nat
  deriving DecidableEq, Repr

/-- TUNE's fields read from the block. -/
def Block.tuneFields (b : Block) : TuneFields where
  qm := b.u8 32
  cap := b.field 34 2
  offsets := [b.i8 36, b.i8 37, b.i8 38, b.i8 39]
  governor :=
    { mode := b.u8 40
      depth := b.u8 41
      rate := b.field 42 2
      threshold := b.u8 44
      qmin := b.u8 45
      qmax := b.u8 46
      qstart := b.u8 47 }
  depth := b.u8 48
  highMark := b.u8 49
  tally := b.u8 50
  blink := b.field 52 2
  watermark := b.u8 54
  retry := b.u8 55
  gapTime := b.field 56 2
  priorities := [b.u8 58, b.u8 59, b.u8 60, b.u8 61]
  tolerance := b.field 62 2

/-- One line's codes in a LINES (section 8.2). -/
structure LineFields where
  role : Nat
  edge : Nat
  active : Nat
  idle : Nat
  filter : Nat
  deriving DecidableEq, Repr

/-- The codes of line `m` read from the block: five bytes from offset 32 + 5m (section 11.1). -/
def Block.lineFields (b : Block) (m : Nat) : LineFields where
  role := b.u8 (32 + 5 * m)
  edge := b.u8 (33 + 5 * m)
  active := b.u8 (34 + 5 * m)
  idle := b.u8 (35 + 5 * m)
  filter := b.u8 (36 + 5 * m)

/-- LOAD_TABLE's fields (section 11.1). -/
structure LoadFields where
  table : Nat
  start : Nat
  count : Nat
  source : Nat
  deriving DecidableEq, Repr

/-- LOAD_TABLE's fields read from the block. -/
def Block.loadFields (b : Block) : LoadFields where
  table := b.u8 32
  start := b.u8 33
  count := b.u8 34
  source := b.field 40 8

/-- One slot of a GRANT as the host gives it: segment address and length (section 11.2). -/
structure GrantSlot where
  address : Nat
  length : Nat
  deriving DecidableEq, Repr

/-- Slot `i` of a GRANT, at offset 64 + 32i (section 11.2). -/
def Block.grantSlot (b : Block) (i : Nat) : GrantSlot := ⟨b.field (64 + 32 * i) 8, b.field (72 + 32 * i) 4⟩

/-- The stream that a stream field names, 0 master or 1 proxy. -/
def streamOfCode : Nat → Option Stream
  | 0 => some .master
  | 1 => some .proxy
  | _ => none

/-- The label that a SET_TIMECODE gives (section 11.1). -/
def Block.labelField (b : Block) : Label := ⟨b.u8 32, b.u8 33, b.u8 34, b.u8 35, b.u8 36 != 0⟩

/-- The mark kind that a MARK gives, 1 GOOD or 2 FLAG (section 11.1). -/
def markKindOfCode : Nat → Option MarkKind
  | 1 => some .good
  | 2 => some .flag
  | _ => none

end Sys2Proof.Machine
end

