-- ==== Sys2Proof/Machine/Ports.lean ====
section
/-! DEFINITION. The System Port Arbiter: requesting the port, choosing whom it is granted, and a burst's
answer (sections 7.7, 7.8). -/

namespace Sys2Proof.Machine

/-- A requester's burst waits at the arbiter, with attempt count 0 (R135, R138). -/
def requestBurst (r : Requester) (b : Burst) (s : State) : State :=
  { s with arbiter := { s.arbiter with
      bursts := s.arbiter.bursts.set (some b) r
      attempts := s.arbiter.attempts.set 0 r } }

/-- A requester's burst is neither waiting nor in progress any more. -/
def dropBurst (r : Requester) (s : State) : State :=
  { s with arbiter := { s.arbiter with bursts := s.arbiter.bursts.set none r } }

/-- The burst of a requester is in progress on the port. -/
def State.inProgress (s : State) (r : Requester) : Bool := s.arbiter.port == some r

/-- A burst of a requester that waits at the arbiter is withdrawn; one in progress is left. -/
def withdrawBurst (r : Requester) (s : State) : State := if s.inProgress r then s else dropBurst r s

/-- The next requester of the ring Walker → Page Writer → Master Writer → Proxy Writer → Walker (R135). -/
def Requester.next : Requester → Requester
  | .walker => .page
  | .page => .master
  | .master => .proxy
  | .proxy => .walker

/-- The ring in order, starting after the round-robin position (R135). -/
def ringAfter (r : Requester) : List Requester := [r.next, r.next.next, r.next.next.next, r]

/-- The requester the arbiter chooses: the first waiting of the ring within HIGH, else within LOW (R135).
It is asked only while the port is free, so every burst is then waiting. -/
def chosen (a : Arbiter) : Option Requester :=
  let waiting := (ringAfter a.position).filter fun r => (a.bursts.get r).isSome
  match waiting.find? fun r => a.high.get r with
  | some r => some r
  | none => waiting.head?

/-- A segment or block burst that begins at `address` with `left` bytes still to carry: at most 4096 bytes,
none across a 4096-byte boundary (R126, R162, R174). -/
def burstLength (address left : Nat) : Nat := min left (4096 - address % 4096)

/-- A burst's bytes as they land in shared memory (log entries 4 and 7). -/
def landBurst (b : Burst) (s : State) : State := { s with shared := writeBytes s.shared b.address b.data }

/-- The port is free again after an answer: the burst that was in progress when an engine reset began, if it
was this one, has ended (R135, R189). -/
def freePort (s : State) : State := { s with arbiter := { s.arbiter with port := none, resetBurst := false } }

/-- The burst on the port belongs to a walker or a writer whose work an engine reset has cleared: its answer
only frees the port (R142, R172). -/
def State.orphan (s : State) (r : Requester) : Bool := s.arbiter.resetBurst && r != .page

/-- The RETRY count increases by one, holding at 2^32 − 1 (R138). -/
def countRetry (s : State) : State :=
  { s with arbiter := { s.arbiter with retries := countUp countMax s.arbiter.retries 1 } }

/-- A RETRY answer that brings the attempt count to 64 × n, for n in force and not 0, is the limit (R138). -/
def reachesLimit (retry attempts : Nat) : Bool := retry != 0 && decide (64 * retry ≤ attempts)

/-- A burst answered RETRY waits again, its requester's attempt count one higher (R138). -/
def waitAgain (r : Requester) (s : State) : State :=
  freePort { s with arbiter := { s.arbiter with
    attempts := s.arbiter.attempts.set (s.arbiter.attempts.get r + 1) r } }

end Sys2Proof.Machine
end

