-- ==== Sys2Proof/Machine/Walker.lean ====
section
/-! DEFINITION. The Directive Walker: taking blocks, completing directives, ending chains (chapter 9). -/

namespace Sys2Proof.Machine

/-! ## The record -/

/-- The walker's record is changed by `f`. -/
def changeWalker (f : Walker → Walker) (s : State) : State := { s with walker := f s.walker }

/-- The current block is changed by `f`, if there is one. -/
def changeBlock (f : Block → Block) (s : State) : State :=
  changeWalker (fun w => { w with block := w.block.map f }) s

/-- The current block goes to a stage. -/
def putStage (stage : Stage) (s : State) : State := changeBlock (fun b => { b with stage := stage }) s

/-- The walker goes to a state, or stays STOPPING if it is STOPPING (R161, R163). -/
def goUnlessStopping (to_ : WalkerState) (w : Walker) : Walker :=
  if w.state = .stopping then w else { w with state := to_ }

/-- The current block while it is handed to an owner as a directive of a kind and not yet taken. -/
def State.handedBlock (s : State) (kind : DirectiveKind) : Option Block :=
  s.walker.block.filter fun b => b.stage == .handed && b.kind == some kind

/-- The directive in flight, if there is one (R163). -/
def State.flight (s : State) : Option Flight :=
  match s.walker.block with
  | some b =>
    match b.stage with
    | .inFlight f => some f
    | _ => none
  | none => none

/-- An engine reset is in progress (R172). -/
def State.resetting (s : State) : Bool := s.walker.state == .resetting

/-! ## Chains -/

/-- The walker takes the block at an address: its header is fetched in one read burst (R161). -/
def takeBlock (address : Nat) (s : State) : State :=
  requestBurst .walker ⟨.header, address, 32, []⟩
    (changeWalker (fun w => goUnlessStopping .walking
      { w with count := w.count + 1, block := some ⟨address, [], [], .header, false⟩ }) s)

/-- A chain starts at an address (R161). -/
def startChain (address : Nat) (s : State) : State :=
  takeBlock address (changeWalker (fun w => { w with count := 0 }) s)

/-- The walker with its chain cleared, IDLE (R168, steps 2 and 4). -/
def Walker.cleared (w : Walker) : Walker :=
  { w with state := .idle, block := none, lastBlock := none, continuation := none, count := 0 }

/-- A chain ends: CHAIN is raised, the record is cleared, and a pending entry starts a new chain or the
walker goes IDLE with the halt request clear (R168). DEDUCED: the end of a chain ends STOPPING too, so a pending
entry's chain starts WALKING after a chain ended by STOP (log entry 45). -/
def endChain (s : State) : State :=
  let told := raise .chain s
  match told.walker.pendingEntry with
  | some address =>
    startChain address (changeWalker (fun w => { w.cleared with pendingEntry := none }) told)
  | none => changeWalker (fun w => { w.cleared with haltRequest := false }) told

/-- A fault of the walker is reported, and the chain ends (R167, R168). -/
def endChainFault (kind : FaultKind) (address : Nat) (frame : Frame) (s : State) : State :=
  endChain (reportFault ⟨kind, .directiveWalker, some address, some frame, none⟩ s)

/-- The walker follows a next address (R166). The fault's address is the last block's, and its frame that
block's completion frame (R167). -/
def followNext (address : Nat) (s : State) : State :=
  let last := s.walker.lastBlock.getD (0, s.intake.counter)
  if 1024 ≤ s.walker.count then endChainFault .chainLoop last.1 last.2 s
  else if 2 ^ 48 ≤ address ∨ address = 0 ∨ address % 32 ≠ 0 then endChainFault .chainForm last.1 last.2 s
  else takeBlock address s

/-- The walker acts on a continuation (R165, R170). -/
def actOn (c : Continuation) (s : State) : State :=
  match c with
  | .chainEnd => endChain s
  | .next address => followNext address s

/-! ## Outcomes -/

/-- The seven bytes of an outcome burst: completion frame, detail and code (R164, R190). -/
def outcomeBytes (code detail : Nat) (frame : Frame) : List Byte :=
  leBytes 4 frame.toNat ++ leBytes 2 detail ++ leBytes 1 code

/-- The directive in hand completes, is refused or is abandoned: the walker goes WALKING, or stays
STOPPING, and its outcome burst is requested, with the frame counter's value at this moment (R163,
R164). -/
def complete (v : Verdict) (detail : Nat) (s : State) : State :=
  match s.walker.block with
  | none => s
  | some b =>
    let frame := s.intake.counter
    requestBurst .walker ⟨.outcome, b.address + 16, 7, outcomeBytes v.code detail frame⟩
      (putStage (.outcome v.code detail frame) (changeWalker (goUnlessStopping .walking) s))

/-- A directive goes in flight, the walker WAITING (R163). -/
def goInFlight (f : Flight) (s : State) : State :=
  putStage (.inFlight f) (changeWalker (fun w => { w with state := .waiting }) s)

/-! ## Fetching and reading -/

/-- The bytes of the body that the block's length calls for (R162). -/
def Block.bodyLength (b : Block) : Nat := (b.units - 1) * 32

/-- The next body burst is requested (R162). -/
def requestBody (b : Block) (s : State) : State :=
  let address := b.address + 32 + b.body.length
  let length := burstLength address (b.bodyLength - b.body.length)
  putStage .body (requestBurst .walker ⟨.body, address, length, []⟩ s)

/-- The bytes of a LOAD_TABLE's source: count for the activity table, 66 for the look curve (R31, R47). -/
def LoadFields.sourceLength (f : LoadFields) : Nat := if f.table = 0 then f.count else 66

/-- The next table source burst is requested; `got` has arrived (R32, R174). -/
def requestSource (b : Block) (got : List Byte) (s : State) : State :=
  let f := b.loadFields
  let address := f.source + got.length
  let length := burstLength address (f.sourceLength - got.length)
  putStage (.reading got)
    (requestBurst .walker ⟨.table, address, length, []⟩ (changeWalker (goUnlessStopping .walking) s))

/-- The bytes that a read burst of `length` delivers: what arrived, brought to that length (log
entry 8). -/
def delivered (length : Nat) (bytes : List Byte) : List Byte :=
  bytes.take length ++ List.replicate (length - bytes.length) 0

/-! ## GRANT's writes -/

/-- The reason code of a result (section 11.2). -/
def Reason.code : Reason → Nat
  | .full => 1
  | .clipEnd => 2
  | .relinquished => 3
  | .busFault => 4
  | .engineReset => 5
  | .refusedForm => 6
  | .refusedDuplicate => 7
  | .refusedFull => 8

/-- The 15 bytes of a slot's result, at slot offsets 12 to 26 (section 11.2, R191). -/
def resultBytes (bytesUsed : Nat) (first : Frame) (clip begun : Nat) (reason : Reason) (continued : Bool) :
    List Byte :=
  leBytes 4 bytesUsed ++ leBytes 4 first.toNat ++ leBytes 2 clip ++ leBytes 2 begun
    ++ leBytes 1 reason.code ++ leBytes 1 (bit continued) ++ leBytes 1 1

/-- The address of the result fields of slot `i` of a grant block (section 11.2). -/
def resultAddress (block i : Nat) : Nat := block + 64 + 32 * i + 12

/-- The returned count of a grant block: its record's, or `slots` once the record has been freed (R118). -/
def State.returnedCount (s : State) (block slots : Nat) : Nat :=
  match s.writers.grants.find? fun g => g.block == block with
  | some g => g.returned
  | none => slots

/-- The walker's next write of a GRANT taken with `refused` slots refused: the next refused slot's result, or
the grant head's returned count as it stands (R121). -/
def requestGrantWrite (b : Block) (refused : Nat) (left : List (Nat × Reason)) (s : State) : State :=
  match left with
  | (i, reason) :: _ =>
    putStage (.slots refused left) (requestBurst .walker
      ⟨.refusedSlot, resultAddress b.address i, 15, resultBytes 0 0 0 0 reason false⟩ s)
  | [] =>
    putStage (.count refused) (requestBurst .walker
      ⟨.walkerCount, b.address + 34, 1, leBytes 1 (s.returnedCount b.address (b.u8 33))⟩ s)

end Sys2Proof.Machine
end

