-- ==== Sys2Proof/Machine/Writers.lean ====
section
/-! DEFINITION. The Stream Writers: what they write, segments and their results, RELINQUISH, and the state
worked out afresh (sections 7.1 to 7.6, 7.8; the byte layouts of section 11.3). -/

namespace Sys2Proof.Machine

/-! ## The bytes of an entry -/

/-- The kind code of a picture header (section 11.3). -/
def EntryKind.code : EntryKind → Nat
  | .coded => 1
  | .repeated => 2
  | .gap => 3
  | .trailer => 4

/-- The stream code: 0 master, 1 proxy (sections 11.2, 11.3). -/
def streamCode : Stream → Nat
  | .master => 0
  | .proxy => 1

/-- The close reason code (section 11.3). -/
def CloseReason.code : CloseReason → Nat
  | .cutStopped => 1
  | .brokenMasterFull => 2
  | .brokenProxyFull => 3
  | .brokenIndexFull => 4

/-- The source code of a mark: 0 to 5 for the lines, 6 for the directive (section 11.3). -/
def sourceCode : Source → Nat
  | .directive => 6
  | .line n => n.val

/-- The kind code of a mark in a trailer (section 11.3). -/
def MarkKind.code : MarkKind → Nat
  | .good => 1
  | .flag => 2

/-- The picture header (section 11.3, R192). -/
def headerBytes (e : Entry) : List Byte :=
  leBytes 4 0x1D0C23F7 ++ leBytes 1 e.kind.code ++ leBytes 1 (streamCode e.stream)
    ++ leBytes 1 (bit e.preroll + 2 * bit e.unlocked + 4 * bit e.oversize) ++ leBytes 1 e.step
    ++ leBytes 4 e.frame.toNat ++ leBytes 2 (e.clip.getD 0) ++ leBytes 2 e.count
    ++ leBytes 1 e.label.hours ++ leBytes 1 e.label.minutes ++ leBytes 1 e.label.seconds
    ++ leBytes 1 e.label.frames ++ leBytes 4 (e.size - 32) ++ leBytes 1 e.attempt
    ++ leBytes 1 (bit e.label.drop) ++ leBytes 2 e.phase ++ leBytes 4 0

/-- The eight bytes of a mark in a trailer (section 11.3). -/
def markBytesOf (m : Mark) : List Byte :=
  leBytes 4 m.frame.toNat ++ leBytes 1 m.kind.code ++ leBytes 1 (sourceCode m.source) ++ leBytes 2 0

/-- A trailer's payload: the clip record and the marks (section 11.3, R107). -/
def trailerBytes (t : TrailerRecord) : List Byte :=
  leBytes 4 t.last.toNat ++ leBytes 1 t.reason.code ++ leBytes 1 t.lostMarks
    ++ leBytes 2 t.counts.oversize ++ leBytes 4 t.counts.entries ++ leBytes 4 t.counts.repeats
    ++ leBytes 4 t.counts.gaps ++ leBytes 4 t.counts.unlocked ++ leBytes 4 t.overrunDelta
    ++ leBytes 4 t.repeatDelta ++ t.marks.flatMap markBytesOf

/-- Byte `k` of an entry's payload; a coding's bytes are free values (log entry 1). -/
def payloadByte (p : Payload) (k : Nat) : Byte :=
  match p with
  | .none => 0
  | .coded tag => Config.codedByte tag k
  | .trailer t => (trailerBytes t).getD k 0

/-- Byte `k` of an entry as a writer writes it: the picture header, then the payload (section 7.4). -/
def entryByte (e : Entry) (k : Nat) : Byte :=
  if k < 32 then (headerBytes e).getD k 0 else payloadByte e.payload (k - 32)

/-- The bytes of an entry from `start` on. -/
def entryBytes (e : Entry) (start length : Nat) : List Byte :=
  (List.range length).map fun k => entryByte e (start + k)

/-! ## Writers in the state -/

/-- A stream's writer. -/
def State.writer (s : State) (st : Stream) : Writer := s.writers.streams.get st

/-- A stream's writer becomes `w`. -/
def putWriter (st : Stream) (w : Writer) (s : State) : State :=
  { s with writers := { s.writers with streams := s.writers.streams.set w st } }

/-- The front entry of a queue, if the queue offers it to its writer: a trailer, or a committed entry of the
stream's current clip whose frames the other stream's intake mark has passed (R89). -/
def offered (st : Stream) (s : State) : Option Entry :=
  match s.entries st with
  | [] => none
  | e :: _ =>
    if e.kind = .trailer then some e
    else match s.currentClip st, s.queue.intakeMarks.get (otherStream st) with
      | some c, some m => if e.clip = some c.number ∧ e.allBelow m then some e else none
      | _, _ => none

/-- A result of a segment that the stream's writer closed is awaited (R123). -/
def awaitsResult (st : Stream) (s : State) : Bool := s.page.results.any fun r => r.stream == st && r.own

/-- The below-watermark flag worked out again, M_LOW or P_LOW raised where it goes from clear to set
(R124). -/
def refreshBelow (st : Stream) (s : State) : State :=
  let w := s.writer st
  let below := s.writers.watermark != 0 && decide (w.segments.length < s.writers.watermark)
  raiseIf (below && !w.belowWatermark) (.low st) (putWriter st { w with belowWatermark := below } s)

/-- A stream's segment list becomes `segments` (R124). -/
def putSegments (st : Stream) (segments : List Segment) (s : State) : State :=
  refreshBelow st (putWriter st { s.writer st with segments := segments } s)

/-! ## Closing and returning segments -/

/-- The result of a current segment that closes (R129). `undone` is the write position that a begun and
unended entry goes back to, where it does (BUS_FAULT, ENGINE_RESET). -/
def closedResult (st : Stream) (c : Current) (reason : Reason) (bytesUsed : Nat) (undone counted : Bool) : Result where
  stream := st
  segment := c.segment
  bytesUsed := bytesUsed
  clip := c.clip.getD 0
  first := if undone && decide (c.begun ≤ 1) then 0 else c.first.getD 0
  begun := min (if undone then c.begun - 1 else c.begun) 65535
  continued := c.continued
  reason := reason
  own := true
  counted := counted

/-- The result of an unused segment (R129). -/
def unusedResult (st : Stream) (segment : Segment) (reason : Reason) (counted : Bool) : Result where
  stream := st
  segment := segment
  bytesUsed := 0
  clip := 0
  first := 0
  begun := 0
  continued := false
  reason := reason
  own := false
  counted := counted

/-- A result is handed to the Page Writer's result queue (R130). -/
def handResult (r : Result) (s : State) : State := { s with page := { s.page with results := s.page.results ++ [r] } }

/-- The writer's relinquish with no close still to come. -/
def closeDone (w : Writer) : Option Relinquish := w.relinquish.map fun r => { r with close := none }

/-- A close that a RELINQUISH asked for is still to come (R133). -/
def Writer.closePending (w : Writer) : Bool := (w.relinquish.bind Relinquish.close).isSome

/-- The current segment closes with `reason`, or RELINQUISHED where a RELINQUISH's close waits for it, and
its result is handed over; its bytes used is its write position (R127 to R129, R133). -/
def closeSegment (st : Stream) (reason : Reason) (s : State) : State :=
  let w := s.writer st
  match w.current with
  | none => s
  | some c =>
    let pending := w.closePending
    let why := if pending then .relinquished else reason
    handResult (closedResult st c why c.position false pending)
      (putWriter st { w with current := none, relinquish := closeDone w } s)

/-- The current segment closes with the bytes of a begun and unended entry taken back to the entry start:
BUS_FAULT or ENGINE_RESET (R129, R139). `otherwise` is the bytes used where no entry begun in it is
unended. -/
def closeUndone (st : Stream) (reason : Reason) (otherwise : Nat) (s : State) : State :=
  let w := s.writer st
  match w.current with
  | none => s
  | some c =>
    handResult
      (closedResult st c reason (c.entryStart.getD otherwise) c.entryStart.isSome w.closePending)
      (putWriter st { w with current := none, relinquish := closeDone w } s)

/-- The segment at the front of a list is returned unused (R129, R132, R142). It leaves the list as its result is
handed over, and the below-watermark flag and its notice follow there (R118, R124; log entry 44). -/
def returnUnused (st : Stream) (reason : Reason) (counted : Bool) (s : State) : State :=
  match (s.writer st).segments with
  | [] => s
  | segment :: rest => handResult (unusedResult st segment reason counted) (putSegments st rest s)

/-- The result of an unused segment of the stream still waits, from this RELINQUISH or from one that has been
abandoned (R130, R132). -/
def awaitsUnused (st : Stream) (s : State) : Bool := s.page.results.any fun r => r.stream == st && !r.own

/-- The RELINQUISH in hand for a stream goes on: while no close and no result of its own is still to come,
the directive completes if the list is empty, and otherwise the next segment of the list is returned once no
unused segment's result waits, so that the result queue holds at most two results of the stream (R130, R132,
R133; log entry 33). -/
def advanceRelinquish (st : Stream) (s : State) : State :=
  match (s.writer st).relinquish with
  | none => s
  | some r =>
    if r.close.isSome || s.page.results.any (fun x => x.stream == st && x.counted) then s
    else if (s.writer st).segments.isEmpty then
      complete .done r.returned (putWriter st { s.writer st with relinquish := none } s)
    else if awaitsUnused st s then s
    else returnUnused st .relinquished true s

/-- The segments of a stream go back during an engine reset: the current segment first, once the burst in
progress has ended, then the list, each after the one before is returned (R142). -/
def advanceReset (st : Stream) (s : State) : State :=
  if s.inProgress (writerRequester st) || s.page.results.any (fun x => x.stream == st) then s
  else match (s.writer st).current with
    | some c => closeUndone st .engineReset c.position s
    | none => returnUnused st .engineReset false s

/-- The segments of a stream that are on their way back go on: under an engine reset, or under a
RELINQUISH. -/
def advanceReturns (st : Stream) (s : State) : State :=
  if s.resetting then advanceReset st s else advanceRelinquish st s

/-! ## Taking a segment, requesting, and the writer state -/

/-- A writer takes the segment at the front of its list when its queue offers its front, it holds no current
segment, no result of its own is awaited and no RELINQUISH of its stream is in hand; the spell ends
(R123, R125, R132). The segment is continued where an entry has bytes still to write (R127). -/
def takeSegment (st : Stream) (s : State) : State :=
  let w := s.writer st
  if (offered st s).isSome && w.current.isNone && !awaitsResult st s && w.relinquish.isNone && !s.resetting then
    match w.segments with
    | [] => s
    | segment :: rest =>
      putSegments st rest
        (putWriter st { w with
          current := some ⟨segment, 0, none, none, none, 0, w.written != 0⟩
          spell := false } s)
  else s

/-- The burst that a writer forms next from the offered front entry (R126). -/
def writerBurst (e : Entry) (written : Nat) (c : Current) : Burst :=
  let address := c.segment.start + c.position
  let length := burstLength address (min (e.size - written) (c.segment.length - c.position))
  ⟨.entry, address, length, entryBytes e written length⟩

/-- A writer that is not in GAP, holds a current segment and is offered its front requests its next burst,
if it has none (R126, R137, R142). -/
def requestWrite (st : Stream) (s : State) : State :=
  let w := s.writer st
  match offered st s, w.current with
  | some e, some c =>
    if w.gapTimer.isNone && (s.arbiter.bursts.get (writerRequester st)).isNone && !s.resetting then
      requestBurst (writerRequester st) (writerBurst e w.written c) s
    else s
  | _, _ => s

/-- The writer state worked out from its conditions (R122). -/
def writerState (st : Stream) (s : State) : WriterState :=
  let w := s.writer st
  if w.gapTimer.isSome then .gap
  else if (s.arbiter.bursts.get (writerRequester st)).isSome || awaitsResult st s
      || ((offered st s).isSome && w.current.isSome) then .writing
  else if (offered st s).isSome && w.current.isNone
      && (w.segments.isEmpty || w.relinquish.isSome) then .starved
  else .idle

/-- The writer state is worked out afresh; a starvation spell begins where the writer enters STARVED with
none running, and M_STARVED or P_STARVED is raised (R122, R125). -/
def refreshState (st : Stream) (s : State) : State :=
  let now := writerState st s
  let w := s.writer st
  let begins := now == .starved && !w.spell
  raiseIf begins (.starved st)
    (putWriter st
      { w with
        state := now
        spell := w.spell || begins
        spells := if begins then countUp countMax w.spells 1 else w.spells } s)

/-- A writer after an event: segments on their way back, a segment taken, a burst requested, its state. -/
def settleWriter (st : Stream) (s : State) : State :=
  refreshState st (requestWrite st (takeSegment st (advanceReturns st s)))

/-! ## A burst that ends OK -/

/-- The courtesy-gap count after an OK burst of `length` bytes; a gap begins at 256 KiB (R137). -/
def countGap (gapTime length : Nat) (w : Writer) : Writer :=
  if gapTime = 0 then { w with gapCount := 0 }
  else if 262144 ≤ w.gapCount + length then { w with gapCount := 0, gapTimer := some gapTime }
  else { w with gapCount := w.gapCount + length }

/-- The current segment after an OK burst of `length` bytes of entry `e`, of which `written` were written
before; the entry begins in it if the burst carried its first byte, and its start is cleared if the
burst carried its last (R126). -/
def advanceCurrent (e : Entry) (written length : Nat) (c : Current) : Current :=
  let begins := written == 0
  { c with
    position := c.position + length
    clip := c.clip.or e.clip
    begun := if begins then c.begun + 1 else c.begun
    first := if begins then c.first.or (some e.frame) else c.first
    entryStart :=
      if e.size ≤ written + length then none else if begins then some c.position else c.entryStart }

/-- Why the segment closes at the end of an OK burst, if it does, in the order of R127 and R128: a trailer
has ended, the segment is full, or another entry has ended with fewer than 32 bytes left. -/
def closeReasonAfter (e : Entry) (ended : Bool) (c : Current) : Option Reason :=
  if ended && e.kind == .trailer then some .clipEnd
  else if c.segment.length ≤ c.position then some .full
  else if ended && decide (c.segment.length < c.position + 32) then some .full
  else none

/-- A close that a RELINQUISH asked for takes place at the end of this burst (R133). Where the burst in
progress is an entry's first and carries fewer than 32 bytes, the segment closes all the same, and the rest of
the header opens the next one (log entry 34). -/
def closesNow (ended : Bool) (w : Writer) : Bool :=
  match w.relinquish.bind Relinquish.close with
  | some .afterBurst => true
  | some .afterEntry => ended
  | none => false

/-- The Queue Manager removes the front entry of a queue; a trailer's removal is reported to Clip Control
(R90, R108). -/
def removeFront (st : Stream) (e : Entry) (s : State) : State :=
  let removed := putQueue st (s.entries st).tail s
  if e.kind = .trailer then
    match e.clip with
    | some number => trailerWritten number st removed
    | none => removed
  else removed

/-- A writer's burst of `length` bytes has ended OK (R126 to R128, R133, R137). -/
def writerAdvanced (st : Stream) (length : Nat) (s : State) : State :=
  let w := s.writer st
  match (s.entries st).head?, w.current with
  | some e, some c =>
    let ended := decide (e.size ≤ w.written + length)
    let c' := advanceCurrent e w.written length c
    let w' := countGap s.writers.gapTime length
      { w with current := some c', written := if ended then 0 else w.written + length }
    let advanced := putWriter st w' s
    let removed := if ended then removeFront st e advanced else advanced
    match closeReasonAfter e ended c' with
    | some reason => closeSegment st reason removed
    | none => if closesNow ended w' then closeSegment st .relinquished removed else removed
  | _, _ => s

/-! ## A burst that fails -/

/-- The fault source that a stream's writer is (section 10.3). -/
def writerSource : Stream → FaultSource
  | .master => .masterWriter
  | .proxy => .proxyWriter

/-- A writer's burst has failed: the segment closes BUS_FAULT, the entry is to be written again whole, and
the fault is reported (R139). -/
def writerFailed (st : Stream) (kind : FaultKind) (b : Burst) (s : State) : State :=
  let w := s.writer st
  let frame := ((s.entries st).head?).map Entry.frame
  let position := (w.current.map Current.position).getD 0
  let closed := closeUndone st .busFault (if w.written = 0 then position else 0) s
  reportFault ⟨kind, writerSource st, some b.address, frame, some st⟩
    (putWriter st { closed.writer st with written := 0 } closed)

end Sys2Proof.Machine
end

