-- ==== Sys2Proof/Machine/Page.lean ====
section
/-! DEFINITION. The status page's 256 bytes, the registers as the host reads them, and the Page Writer's
requests (chapter 10, section 11.4). -/

namespace Sys2Proof.Machine

/-! ## Values the page shows -/

/-- A frame's age: its distance below the frame counter, held at 65,535 (R193). -/
def ageOf (s : State) (x : Frame) : Nat := min (s.intake.counter - x).toNat 65535

/-- The age of a frame that may be absent; absent shows 0. -/
def ageOf? (s : State) (x : Option Frame) : Nat :=
  match x with
  | none => 0
  | some y => ageOf s y

/-- A count as the page shows it, held at 65,535 (R193). -/
def shown (n : Nat) : Nat := min n 65535

/-- The intake state code (section 11.4, offset 7). -/
def IntakeState.code : IntakeState → Nat
  | .stopped => 0
  | .running => 1
  | .stopping => 2

/-- The two-bit code of a burst depth (section 11.4, offset 36). -/
def depthCode (k : Nat) : Nat := if k = 4 then 0 else if k = 8 then 1 else if k = 16 then 2 else 3

/-- The tally mode code (R113). -/
def TallyMode.code : TallyMode → Nat
  | .auto => 0
  | .forceOn => 1
  | .forceOff => 2

/-- The lamp code (section 11.4, offset 101). -/
def Lamp.code : Lamp → Nat
  | .dark => 0
  | .lit => 1
  | .blink => 2

/-- The last clip event code (section 11.4, offset 106). -/
def ClipEvent.code : ClipEvent → Nat
  | .opened => 1
  | .closed => 2
  | .cancelled => 3
  | .broken => 4
  | .retired => 5
  | .rollRefused => 6

/-- The writer state code (section 11.4, offset 196). -/
def WriterState.code : WriterState → Nat
  | .idle => 0
  | .writing => 1
  | .starved => 2
  | .gap => 3

/-- The role code of a line (section 8.2). -/
def Role.code : Role → Nat
  | .none => 0
  | .rollToggle => 1
  | .rollHold => 2
  | .markGood => 3
  | .markFlag => 4
  | .syncRef => 5

/-- The sync state code (section 11.4, offset 100). -/
def SyncState.code : SyncState → Nat
  | .none => 0
  | .locked => 1
  | .lost => 2

/-- The last capture's result code (section 11.4, offset 100). -/
def captureCode (last : Option (Nat × CaptureResult)) : Nat :=
  match last with
  | none => 0
  | some (_, .hit) => 1
  | some (_, .miss) => 2

/-- The walker state code (R178). -/
def WalkerState.code : WalkerState → Nat
  | .idle => 0
  | .walking => 1
  | .waiting => 2
  | .halted => 3
  | .stopping => 4
  | .resetting => 5

/-- The last refusal reason code (R178). -/
def EntryRefusal.code : EntryRefusal → Nat
  | .none => 0
  | .misaligned => 1
  | .outOfRange => 2
  | .pendingFull => 3
  | .resetting => 4

/-- The fault kind code (section 11.4, offset 241). -/
def FaultKind.code : FaultKind → Nat
  | .systemError => 1
  | .retryLimit => 2
  | .fetchFault => 3
  | .writebackFault => 4
  | .chainForm => 5
  | .chainLoop => 6
  | .frameLost => 7
  | .frameMalformed => 8
  | .queueFull => 9
  | .resultWrite => 10

/-- The fault source code (section 11.4, offset 242). -/
def FaultSource.code : FaultSource → Nat
  | .pictureIntake => 1
  | .clipControl => 2
  | .masterWriter => 3
  | .proxyWriter => 4
  | .pageWriter => 5
  | .directiveWalker => 6

/-- The stream code of a fault: 0 none, 1 master, 2 proxy (section 11.4, offset 242). -/
def faultStreamCode : Option Stream → Nat
  | none => 0
  | some .master => 1
  | some .proxy => 2

/-- A record number placed into a list of (record number, clip) pairs in age order, oldest first. -/
def insertByAge (q : Nat) (c : Clip) : List (Nat × Clip) → List (Nat × Clip)
  | [] => [(q, c)]
  | d :: rest => if isBelow c.first d.2.first then (q, c) :: d :: rest else d :: insertByAge q c rest

/-- The clips in the table with their record numbers, in age order (R94). -/
def ageOrder : Nat → List (Option Clip) → List (Nat × Clip)
  | _, [] => []
  | q, none :: rest => ageOrder (q + 1) rest
  | q, some c :: rest => insertByAge q c (ageOrder (q + 1) rest)

/-- Two-bit numbers packed from bit 0 upward. -/
def packPairs : List Nat → Nat
  | [] => 0
  | a :: rest => a + 4 * packPairs rest

/-- Bits 7 to 4 of offset 228: the kind of the current block, 0 while the walker holds none or its header
has not arrived (R193; log entry 2). -/
def kindNibble (w : Walker) : Nat :=
  match w.block with
  | none => 0
  | some b => if (b.byteAt 0).toNat < 16 then (b.byteAt 0).toNat else (Config.wideKindNibble (b.byteAt 0)).toNat

/-! ## The page -/

/-- Offsets 0 to 35 of the page. -/
def pageIntake (s : State) : List Byte :=
  leBytes 4 s.page.sequence.toNat ++ leBytes 3 s.notices.pending.toNat
    ++ leBytes 1 (s.intake.state.code + 4 * ((s.master.picture.map MasterPicture.attempt).getD 0)
        + 16 * bit s.intake.geometry.isSome + 32 * bit s.resetting + 64 * bit s.notices.freeze)
    ++ leBytes 4 s.intake.counter.toNat
    ++ leBytes 1 s.intake.timecode.hours ++ leBytes 1 s.intake.timecode.minutes
    ++ leBytes 1 s.intake.timecode.seconds ++ leBytes 1 s.intake.timecode.frames
    ++ leBytes 1 (bit s.intake.timecode.drop + 2 * bit s.master.picture.isSome
        + 4 * bit s.proxy.picture.isSome + 8 * bit (s.master.tableState == .ready)
        + 16 * bit (s.proxy.curveState == .ready) + 32 * bit (s.proxy.filter == .long)
        + 64 * bit s.queue.queues.master.aboveMark + 128 * bit s.queue.queues.proxy.aboveMark)
    ++ leBytes 1 (s.slots.filter fun slot => slot.state == .free).length
    ++ leBytes 1 (s.slots.filter fun slot => slot.state == .ready).length
    ++ leBytes 1 s.inputs.master.length ++ leBytes 1 s.inputs.proxy.length
    ++ leBytes 1 s.master.settings.step ++ leBytes 2 (shown s.intake.lost)
    ++ leBytes 2 (shown s.intake.malformed) ++ leBytes 2 s.master.settings.cap
    ++ leSigned 1 (s.master.settings.offsets.getD 0 0) ++ leSigned 1 (s.master.settings.offsets.getD 1 0)
    ++ leSigned 1 (s.master.settings.offsets.getD 2 0) ++ leSigned 1 (s.master.settings.offsets.getD 3 0)
    ++ leBytes 2 (ageOf? s (s.master.picture.map fun p => p.item.frame))
    ++ leBytes 2 (ageOf? s (s.proxy.picture.map fun p => p.item.frame))

/-- Offsets 36 to 67 of the page. -/
def pageGovernor (s : State) : List Byte :=
  let g := s.governor
  leBytes 1 (g.inputs.mode.code + 4 * depthCode g.inputs.depth + 16 * depthCode (effectiveDepth g.inputs))
    ++ leBytes 1 g.inputs.threshold ++ leBytes 2 g.inputs.rate
    ++ leBytes 3 (g.inputs.qmin + 2 ^ 6 * g.inputs.qmax + 2 ^ 12 * g.inputs.qstart + 2 ^ 18 * g.step)
    ++ leBytes 5 g.n ++ leBytes 3 g.nominal ++ leBytes 3 g.burst ++ leBytes 3 g.skipAt
    ++ leBytes 3 g.remainder ++ leSigned 3 g.credit ++ leBytes 1 s.queue.depth
    ++ leBytes 2 (shown g.overruns) ++ leBytes 2 (shown g.repeats)

/-- Offsets 68 to 99 of the page. -/
def pageQueues (s : State) : List Byte :=
  let m := s.entries .master
  let p := s.entries .proxy
  leBytes 5 (bytesInUse m) ++ leBytes 4 (bytesInUse p) ++ leBytes 2 m.length ++ leBytes 2 p.length
    ++ leBytes 2 (committedCount m) ++ leBytes 2 (committedCount p)
    ++ leBytes 2 (shown (heldFrames m)) ++ leBytes 2 (shown (heldFrames p))
    ++ leBytes 2 (ageOf? s s.queue.intakeMarks.master) ++ leBytes 2 (ageOf? s s.queue.intakeMarks.proxy)
    ++ leBytes 2 (ageOf s s.queue.agingLine) ++ leBytes 2 (ageOf s s.clips.rollFloor)
    ++ leBytes 2 s.queue.limit ++ leBytes 1 s.queue.highMark

/-- Offsets 100 to 111 of the page. -/
def pageFlags (s : State) : List Byte :=
  leBytes 1 (bit s.queue.intakeMarks.master.isSome + 2 * bit s.queue.intakeMarks.proxy.isSome
      + 4 * bit (s.writer .master).belowWatermark + 8 * bit (s.writer .proxy).belowWatermark
      + 16 * captureCode s.lines.sync.last + 64 * s.lines.sync.state.code)
    ++ leBytes 1 (s.clips.tallyMode.code + 4 * s.clips.lamp.code + 16 * s.clips.held.length)
    ++ leBytes 2 s.clips.nextNumber ++ leBytes 2 s.clips.blinkTime
    ++ leBytes 1 (((s.clips.lastEvent).map fun e => e.1.code).getD 0)
    ++ leBytes 1 (packPairs ((ageOrder 0 s.clips.table).map Prod.fst))
    ++ leBytes 2 (((s.clips.lastEvent).map Prod.snd).getD 0) ++ leBytes 2 (shown s.clips.heldLost)

/-- The 16 bytes of a clip record; a free record reads 0 throughout (R193). -/
def pageClip (s : State) (record : Option Clip) : List Byte :=
  match record with
  | none => List.replicate 16 0
  | some c =>
    leBytes 2 c.number
      ++ leBytes 1 ((if c.closing.isSome then 2 else 1)
          + 4 * ((c.closing.map fun closing => closing.reason.code).getD 0))
      ++ leBytes 1 c.marks.length ++ leBytes 4 c.first.toNat
      ++ leBytes 4 ((c.closing.map fun closing => closing.last.toNat).getD 0)
      ++ leBytes 2 (ageOf s c.reach.master) ++ leBytes 2 (ageOf s c.reach.proxy)

/-- Offsets 112 to 175 of the page: clip records 0 to 3. -/
def pageClips (s : State) : List Byte :=
  (List.range 4).flatMap fun q => pageClip s ((s.clips.table.getD q none))

/-- The four bits of a held mark: its kind in bit 3 and its source in bits 2 to 0 (section 11.4). -/
def markNibble (m : Mark) : Nat := 8 * (m.kind.code - 1) + sourceCode m.source

/-- The held marks' nibbles packed from bit 0 upward. -/
def packNibbles : List Mark → Nat
  | [] => 0
  | m :: rest => markNibble m + 16 * packNibbles rest

/-- Offsets 176 to 195 of the page: the held marks. -/
def pageMarks (s : State) : List Byte :=
  ((List.range 8).flatMap fun j => leBytes 2 (ageOf? s ((s.clips.held[j]?).map Mark.frame)))
    ++ leBytes 4 (packNibbles s.clips.held)

/-- Offsets 196 to 215 of the page (the order of the four priority bits: log entry 32). -/
def pageWriters (s : State) : List Byte :=
  let m := s.writer .master
  let p := s.writer .proxy
  let high := s.arbiter.high
  leBytes 1 (m.state.code + 4 * p.state.code + 16 * bit m.current.isSome + 32 * bit p.current.isSome)
    ++ leBytes 1 m.segments.length ++ leBytes 1 p.segments.length ++ leBytes 1 s.writers.grants.length
    ++ leBytes 3 ((m.current.map Current.position).getD 0)
    ++ leBytes 3 ((p.current.map Current.position).getD 0)
    ++ leBytes 2 (shown m.spells) ++ leBytes 2 (shown p.spells) ++ leBytes 1 s.writers.watermark
    ++ leBytes 1 (s.writers.retry + 16 * bit high.walker + 32 * bit high.page + 64 * bit high.master
        + 128 * bit high.proxy)
    ++ leBytes 2 s.writers.gapTime ++ leBytes 2 (shown s.arbiter.retries)

/-- The byte of an event line (section 11.4, offset 216). -/
def pageLine (l : Line) : Byte :=
  BitVec.ofNat 8 (l.role.code + 8 * bit (l.filtered == .high) + 16 * bit l.timer.isSome)

/-- Offsets 216 to 227 of the page. -/
def pageLines (s : State) : List Byte :=
  let sync := s.lines.sync
  ((List.range 6).map fun m => pageLine (s.lines.lines.getD m (Line.reset none)))
    ++ leBytes 3 (sync.lastPhase + 2 ^ 12 * (sync.last.map Prod.fst).getD 0)
    ++ leBytes 2 sync.tolerance ++ leBytes 1 (min sync.hitRun 15 + 16 * min sync.missRun 15)

/-- Offsets 228 to 240 of the page. -/
def pageWalker (s : State) : List Byte :=
  let w := s.walker
  leBytes 1 (w.state.code + 8 * bit w.pendingEntry.isSome + 16 * kindNibble w)
    ++ leBytes 2 w.count ++ leBytes 6 ((w.block.map Block.address).getD 0) ++ leBytes 4 w.lastTag.toNat

/-- Offsets 241 to 255 of the page: the error log. -/
def pageFault (s : State) : List Byte :=
  match s.notices.log with
  | none => leBytes 1 0 ++ leBytes 1 0 ++ leBytes 1 s.notices.later ++ List.replicate 12 0
  | some f =>
    leBytes 1 f.kind.code ++ leBytes 1 (f.source.code + 8 * faultStreamCode f.stream)
      ++ leBytes 1 s.notices.later ++ leBytes 6 (f.address.getD 0)
      ++ leBytes 4 ((f.frame.map BitVec.toNat).getD 0) ++ leBytes 2 0

/-- The 256 bytes of the status page formed from the state as it stands (R193, section 11.4). -/
def statusPage (s : State) : List Byte :=
  pageIntake s ++ pageGovernor s ++ pageQueues s ++ pageFlags s ++ pageClips s ++ pageMarks s
    ++ pageWriters s ++ pageLines s ++ pageWalker s ++ pageFault s

/-! ## The registers as the host reads them -/

/-- What a read of ENTRY returns (R178). -/
def entryRegister (s : State) : BitVec 32 :=
  BitVec.ofNat 32
    (s.walker.state.code + 8 * bit s.walker.pendingEntry.isSome + 16 * s.walker.lastRefusal.code)

/-- What a read of CONTROL returns (R179). -/
def controlRegister (s : State) : BitVec 32 := BitVec.ofNat 32 (8 * bit s.notices.freeze + 16 * bit s.resetting)

/-- What a 32-bit read at an offset of the register window returns (R178 to R180). -/
def readRegister (offset : Nat) (s : State) : BitVec 32 :=
  match offset with
  | 0x00 => 0x72305001
  | 0x04 => entryRegister s
  | 0x08 => controlRegister s
  | 0x0C => s.notices.pending.setWidth 32
  | 0x10 => s.notices.mask.setWidth 32
  | _ => 0

/-! ## The Page Writer's requests -/

/-- The result at the front of the result queue, unless it waits for the walker's writes of its own GRANT to
end (R121, R130). -/
def readyResult (s : State) : Option Result :=
  match s.page.results with
  | [] => none
  | r :: _ =>
    match s.walker.block with
    | some b => if b.granted && b.address == r.segment.block then none else some r
    | none => some r

/-- A rewrite is owed and may begin (R185, R186). -/
def mayRewrite (s : State) : Bool := s.page.owed && !s.notices.freeze && s.page.address.isSome

/-- The Page Writer asks for a rewrite burst, which has not begun (R185). -/
def requestRewrite (s : State) : State :=
  requestBurst .page ⟨.rewrite, s.page.address.getD 0, 256, []⟩ { s with page := { s.page with begun := false } }

/-- The Page Writer asks for the first burst of a result: the result fields (R130, R191). -/
def requestResult (r : Result) (s : State) : State :=
  requestBurst .page
    ⟨.resultSlot, resultAddress r.segment.block r.segment.slot, 15,
      resultBytes r.bytesUsed r.first r.clip r.begun r.reason r.continued⟩
    { s with page := { s.page with lastKind := .result } }

/-- The Page Writer, when it is free to request its next burst, chooses its work (R187). -/
def pageRequest (s : State) : State :=
  if (s.arbiter.bursts.page).isSome then s
  else match readyResult s with
    | none => if mayRewrite s then requestRewrite s else s
    | some r =>
      if mayRewrite s && s.page.lastKind == .result then requestRewrite s else requestResult r s

/-- A rewrite begins at its grant: the owed flag clears, the sequence increases, and the 256 bytes are
formed from the state as it stands, to go to the page address in force (R185). -/
def beginRewrite (s : State) : State :=
  let counted := { s with page := { s.page with
    owed := false, begun := true, lastKind := .rewrite, sequence := s.page.sequence + 1 } }
  { counted with arbiter := { counted.arbiter with
      bursts := counted.arbiter.bursts.set
        (some ⟨.rewrite, s.page.address.getD 0, 256, statusPage counted⟩) .page } }

/-- The rewrite burst that waits has not begun (R185). -/
def rewriteWaits (s : State) : Bool :=
  match s.arbiter.bursts.page with
  | some b => b.kind == .rewrite && !s.page.begun
  | none => false

/-- The arbiter grants the free port to a waiting burst, and the round-robin position becomes its requester;
a rewrite begins at its grant (R135, R185). -/
def grantPort (s : State) : State :=
  if s.arbiter.port.isSome then s
  else match chosen s.arbiter with
    | none => s
    | some r =>
      let granted := { s with arbiter := { s.arbiter with port := some r, position := r } }
      if r = .page ∧ rewriteWaits s = true then beginRewrite granted else granted

end Sys2Proof.Machine
end

