-- ==== Sys2Proof/Machine/Settle.lean ====
section
/-! DEFINITION. What follows from an event at once: writers, a WAIT for DRAINED, the Page Writer's request
and the arbiter's grant; and a burst that ends OK. -/

namespace Sys2Proof.Machine

/-- The condition DRAINED: no clip in the table, and neither queue holds a committed entry or a trailer
(R176). -/
def drainedHolds (s : State) : Bool :=
  s.clipList.isEmpty && committedCount (s.entries .master) == 0 && committedCount (s.entries .proxy) == 0

/-- A WAIT for DRAINED in flight completes once its condition holds (R176). -/
def testDrained (s : State) : State :=
  if s.flight = some .drained ∧ drainedHolds s = true then complete .done 0 s else s

/-- What follows from an event at once, in this order: both writers, a WAIT for DRAINED, the Page Writer's
next request and the arbiter's grant (R122 to R126, R135, R176, R185, R187; log entry 13). -/
def settle (s : State) : State :=
  grantPort (pageRequest (testDrained (settleWriter .proxy (settleWriter .master s))))

/-- The burst of a requester and kind that is in progress on the port, if it is that one. -/
def State.onPort (s : State) (r : Requester) (kind : BurstKind) : Option Burst :=
  if s.inProgress r then (s.arbiter.bursts.get r).filter fun b => b.kind == kind else none

/-- A burst ends OK: its bytes land, it is gone, and the port is free. -/
def endBurst (r : Requester) (b : Burst) (s : State) : State := landBurst b (dropBurst r (freePort s))

/-- The burst of a requester and kind on the port ends OK, and `act` follows unless an engine reset has
cleared the work it belongs to (R142, R172). With no such burst on the port there is nothing to end (log
entry 14). -/
def answerOk (r : Requester) (kind : BurstKind) (act : Burst → State → State) (s : State) : State :=
  match s.onPort r kind with
  | none => s
  | some b => settle (if s.orphan r then endBurst r b s else act b (endBurst r b s))

/-- A directive goes in flight, or is abandoned at once while the walker is STOPPING (R163, R171). -/
def goOrAbandon (f : Flight) (s : State) : State :=
  if s.walker.state = .stopping then complete .abandoned 0 s else goInFlight f s

end Sys2Proof.Machine
end

