-- ==== Sys2Proof/Machine/Bursts.lean ====
section
/-! DEFINITION. The ends of the bursts of the Page Writer and the Stream Writers, the gap timer, and the RETRY
and ERROR answers (chapter 7, sections 7.5 to 7.8). -/

namespace Sys2Proof.Machine

/-! ## The Page Writer's bursts -/

/-- PAGE_REWRITE_DONE (R185). -/
def execPageRewriteDone (s : State) : Host.Outcome State Fault Refusal :=
  .next (answerOk .page .rewrite (fun _ t => t) s)

/-- The returned count of a grant block's record increases by one (R130). -/
def countReturned (block : Nat) (s : State) : State :=
  { s with writers := { s.writers with
      grants := s.writers.grants.map fun g =>
        if g.block = block then { g with returned := g.returned + 1 } else g } }

/-- The burst that writes a grant head's returned count as it stands (R130, R191). -/
def countBurst (block : Nat) (s : State) : Burst :=
  ⟨.resultCount, block + 34, 1, leBytes 1 (s.returnedCount block 0)⟩

/-- A result's fields have been written: the returned count increases and its burst is requested (R130). -/
def resultSlotWritten (s : State) : State :=
  match s.page.results with
  | [] => s
  | r :: _ =>
    let counted := countReturned r.segment.block s
    requestBurst .page (countBurst r.segment.block counted) counted

/-- RESULT_SLOT_BURST_DONE (R130). -/
def execResultSlotBurstDone (s : State) : Host.Outcome State Fault Refusal :=
  .next (answerOk .page .resultSlot (fun _ => resultSlotWritten) s)

/-- A grant record whose returned count equals its slot count is freed (R118, R130). -/
def freeGrants (s : State) : State :=
  { s with writers := { s.writers with grants := s.writers.grants.filter fun g => g.returned != g.slots } }

/-- A RELINQUISH in hand counts a segment that it has returned (R132). -/
def countRelinquished (r : Result) (s : State) : State :=
  let w := s.writer r.stream
  if r.counted then
    putWriter r.stream { w with relinquish := w.relinquish.map fun q => { q with returned := q.returned + 1 } } s
  else s

/-- The segment of the oldest result is returned: it is no longer held, its notice is raised, and its grant
record may be freed (R130, R131). -/
def segmentReturned (s : State) : State :=
  match s.page.results with
  | [] => s
  | r :: rest =>
    countRelinquished r
      (freeGrants (raise (.returned r.stream) { s with page := { s.page with results := rest } }))

/-- RESULT_COUNT_BURST_DONE (R130). -/
def execResultCountBurstDone (s : State) : Host.Outcome State Fault Refusal :=
  .next (answerOk .page .resultCount (fun _ => segmentReturned) s)

/-! ## The Stream Writers -/

/-- The Stream Writer whose burst is on the port, if one's is. -/
def State.portWriter (s : State) : Option Stream := s.arbiter.port.bind requesterStream

/-- A Stream Writer's burst on the port ends OK (R126). -/
def writerBurstDone (s : State) : State :=
  match s.portWriter with
  | none => s
  | some st => answerOk (writerRequester st) .entry (fun b => writerAdvanced st b.length) s

/-- WRITER_BURST_DONE (R126). -/
def execWriterBurstDone (s : State) : Host.Outcome State Fault Refusal := .next (writerBurstDone s)

/-- The courtesy gap of a stream's writer ends, if one runs (R137). -/
def gapExpired (st : Stream) (s : State) : State :=
  if (s.writer st).gapTimer.isSome then settle (putWriter st { s.writer st with gapTimer := none } s) else s

/-- GAP_TIMER_EXPIRY (R137). -/
def execGapTimerExpiry (stream : Stream) (s : State) : Host.Outcome State Fault Refusal :=
  .next (gapExpired stream s)

/-! ## Bursts that fail -/

/-- The fault kind of a failed burst of the walker (R167). -/
def BurstKind.walkerFault : BurstKind → FaultKind
  | .header | .body | .table => .fetchFault
  | .outcome | .refusedSlot | .walkerCount | .rewrite | .resultSlot | .resultCount | .entry => .writebackFault

/-- The completion frame that a walker fault carries: the block's where its outcome was being written, and
otherwise the frame counter's value (R167; log entry 12). -/
def faultFrame (s : State) : Frame :=
  match s.walker.block.map Block.stage with
  | some (.outcome _ _ frame) => frame
  | _ => s.intake.counter

/-- A walker burst has failed: the halt request is clear, and the chain ends by fault (R140, R167). -/
def walkerFailed (b : Burst) (s : State) : State :=
  endChainFault b.kind.walkerFault b.address (faultFrame s)
    (changeWalker (fun w => { w with haltRequest := false }) s)

/-- A burst of a result write has failed: the segment counts as returned all the same (R131). -/
def resultFailed (b : Burst) (s : State) : State :=
  match s.page.results with
  | [] => s
  | r :: _ =>
    let counted := if b.kind = .resultSlot then countReturned r.segment.block s else s
    segmentReturned
      (reportFault ⟨.resultWrite, .pageWriter, some b.address, some r.first, some r.stream⟩ counted)

/-- A page rewrite has failed (R140). -/
def rewriteFailed (kind : FaultKind) (b : Burst) (s : State) : State :=
  reportFault ⟨kind, .pageWriter, some b.address, none, none⟩ s

/-- A Page Writer burst has failed (R131, R140). -/
def pageFailed (kind : FaultKind) (b : Burst) (s : State) : State :=
  if b.kind = .rewrite then rewriteFailed kind b s else resultFailed b s

/-- A requester's burst has failed with SYSTEM_ERROR or RETRY_LIMIT, and the requester acts (R138 to
R140). -/
def burstFailed (r : Requester) (kind : FaultKind) (b : Burst) (s : State) : State :=
  match r with
  | .walker => walkerFailed b s
  | .page => pageFailed kind b s
  | .master => writerFailed .master kind b s
  | .proxy => writerFailed .proxy kind b s

/-- The requester and burst in progress on the port. -/
def State.portBurst (s : State) : Option (Requester × Burst) :=
  s.arbiter.port.bind fun r => (s.arbiter.bursts.get r).map fun b => (r, b)

/-- A RETRY answer to a requester's burst: it waits again, fails at the limit, or, where an engine reset has
cleared its work, is not reissued (R138, R142, R172). -/
def retried (r : Requester) (b : Burst) (s : State) : State :=
  let counted := countRetry s
  if s.orphan r then dropBurst r (freePort counted)
  else if reachesLimit s.writers.retry (s.arbiter.attempts.get r + 1) then
    burstFailed r .retryLimit b (dropBurst r (freePort counted))
  else waitAgain r counted

/-- The burst on the port is answered RETRY (R138). -/
def answerRetry (s : State) : State :=
  match s.portBurst with
  | none => s
  | some (r, b) => settle (retried r b s)

/-- BURST_RETRY (R138). -/
def execBurstRetry (s : State) : Host.Outcome State Fault Refusal := .next (answerRetry s)

/-- An ERROR answer to a requester's burst: what a write burst was to write there is not known to stand (log
entry 7), and the burst fails unless an engine reset has cleared its work (R138, R142, R172). -/
def errored (r : Requester) (b : Burst) (s : State) : State :=
  let ended := dropBurst r (freePort { s with shared := forgetBytes s.shared b.address b.data.length })
  if s.orphan r then ended else burstFailed r .systemError b ended

/-- The burst on the port is answered ERROR (R138). -/
def answerError (s : State) : State :=
  match s.portBurst with
  | none => s
  | some (r, b) => settle (errored r b s)

/-- BURST_ERROR (R138). -/
def execBurstError (s : State) : Host.Outcome State Fault Refusal := .next (answerError s)

end Sys2Proof.Machine
end

