-- ==== Sys2Proof/Machine/Chains.lean ====
section
/-! DEFINITION. The commands that reach the Directive Walker: ENTRY, the ends of its bursts, HALT, RESUME and
STOP (chapter 9). -/

namespace Sys2Proof.Machine

/-! ## ENTRY -/

/-- An ENTRY write is refused: its reason is kept and ENTRY_REFUSED is raised (R160). -/
def refuseEntry (reason : EntryRefusal) (s : State) : State :=
  raise .entryRefused (changeWalker (fun w => { w with lastRefusal := reason }) s)

/-- An address is held as the pending entry, or refused where one is held (R160). -/
def holdEntry (address : Nat) (s : State) : State :=
  if s.walker.pendingEntry.isSome then refuseEntry .pendingFull s
  else changeWalker (fun w => { w with pendingEntry := some address }) s

/-- A write of `v` to ENTRY (R160). -/
def takeEntry (v : BitVec 32) (s : State) : State :=
  if v.toNat % 2 = 1 then refuseEntry .misaligned s
  else if v = 0 then refuseEntry .outOfRange s
  else match s.walker.state with
    | .resetting => refuseEntry .resetting s
    | .idle => startChain (16 * v.toNat) s
    | .walking | .waiting | .halted | .stopping => holdEntry (16 * v.toNat) s

/-- ENTRY (R160). -/
def execEntry (value : BitVec 32) (s : State) : Host.Outcome State Fault Refusal :=
  .next (settle (takeEntry value s))

/-! ## Fetching -/

/-- The block in hand, whole, is handed to its owner. ROLL and CUT are then in flight; every other kind
waits for its owner to take it (R100, R163; log entry 15). -/
def handOver (kind : DirectiveKind) (s : State) : State :=
  match kind with
  | .roll => goOrAbandon .roll s
  | .cut => goOrAbandon .cut s
  | .setup | .tune | .lines | .loadTable | .grant | .relinquish | .startIntake | .stopIntake | .mark
  | .setTimecode | .wait => putStage .handed s

/-- The header's kind and length are checked, and the body is fetched or the block handed over (R162). -/
def headerChecked (b : Block) (s : State) : State :=
  match b.kind with
  | none => complete .badKind 0 s
  | some kind =>
    if lengthFits kind b.units then
      if b.units = 1 then handOver kind s else requestBody b s
    else complete .badLength 0 s

/-- The header has arrived (R161, R162). -/
def headerArrived (bytes : List Byte) (s : State) : State :=
  match s.walker.block with
  | none => s
  | some b =>
    let fetched := { b with header := delivered 32 bytes }
    headerChecked fetched (changeBlock (fun _ => fetched) s)

/-- HEADER_FETCH_DONE (R162). -/
def execHeaderFetchDone (bytes : List Byte) (s : State) : Host.Outcome State Fault Refusal :=
  .next (answerOk .walker .header (fun _ => headerArrived bytes) s)

/-- A body burst of `length` bytes has arrived: the next burst is requested, or the whole block is handed to
its owner (R162, R163). -/
def bodyArrived (length : Nat) (bytes : List Byte) (s : State) : State :=
  match s.walker.block with
  | none => s
  | some b =>
    let fetched := { b with body := b.body ++ delivered length bytes }
    let kept := changeBlock (fun _ => fetched) s
    if fetched.body.length < fetched.bodyLength then requestBody fetched kept
    else match fetched.kind with
      | some kind => handOver kind kept
      | none => kept

/-- BODY_FETCH_DONE (R163). -/
def execBodyFetchDone (bytes : List Byte) (s : State) : Host.Outcome State Fault Refusal :=
  .next (answerOk .walker .body (fun b => bodyArrived b.length bytes) s)

/-! ## Reading a table source -/

/-- A source byte as a class: above 3 clamped to 3 (R32). -/
def classOf (b : Byte) : Nat := min b.toNat 3

/-- Entries from `start` on replaced by `values`, the others kept (R32). -/
def spliceAt (start : Nat) (values table : List Nat) : List Nat :=
  table.take start ++ values ++ table.drop (start + values.length)

/-- The 33 values of a look curve's source: two bytes each, little-endian (R47). -/
def curveValues (bytes : List Byte) : List Nat :=
  (List.range 33).map fun k => leValue ((bytes.drop (2 * k)).take 2)

/-- The points of a loaded curve, each clamped to 4095 and then raised to the point before it (R48). -/
def adjustPoints : Nat → List Nat → List Nat
  | _, [] => []
  | before, v :: rest => max before (min v 4095) :: adjustPoints (max before (min v 4095)) rest

/-- How many values differ from the values given. -/
def countDifferent : List Nat → List Nat → Nat
  | a :: as, b :: bs => differs a b + countDifferent as bs
  | _, _ => 0

/-- The activity table takes the classes read, as one change, and the load completes (R32). -/
def loadActivity (f : LoadFields) (got : List Byte) (s : State) : State :=
  complete (doneVerdict (countDifferent (got.map classOf) (got.map BitVec.toNat)))
    (countDifferent (got.map classOf) (got.map BitVec.toNat))
    { s with master := { s.master with table := spliceAt f.start (got.map classOf) s.master.table } }

/-- The look curve takes the points read, adjusted, as one change, and the load completes (R48). -/
def loadCurve (got : List Byte) (s : State) : State :=
  let points := adjustPoints 0 (curveValues got)
  let adjusted := countDifferent points (curveValues got)
  complete (doneVerdict adjusted) adjusted { s with proxy := { s.proxy with curve := points } }

/-- A burst of `length` bytes of a table's source has arrived: the next is requested, or the load is carried
out (R32, R48). -/
def sourceArrived (length : Nat) (bytes : List Byte) (s : State) : State :=
  match s.walker.block with
  | none => s
  | some b =>
    match b.stage with
    | .reading before =>
      let got := before ++ delivered length bytes
      if got.length < b.loadFields.sourceLength then requestSource b got s
      else if b.loadFields.table = 0 then loadActivity b.loadFields got s
      else loadCurve got s
    | _ => s

/-- TABLE_SOURCE_READ_DONE (R32). -/
def execTableSourceReadDone (bytes : List Byte) (s : State) : Host.Outcome State Fault Refusal :=
  .next (answerOk .walker .table (fun b => sourceArrived b.length bytes) s)

/-! ## GRANT's writes -/

/-- A refused slot's result has been written: the next is written, or the returned count (R121). -/
def refusedSlotWritten (s : State) : State :=
  match s.walker.block with
  | none => s
  | some b =>
    match b.stage with
    | .slots refused left => requestGrantWrite b refused left.tail s
    | _ => s

/-- REFUSED_SLOT_WRITE_DONE (R121). -/
def execRefusedSlotWriteDone (s : State) : Host.Outcome State Fault Refusal :=
  .next (answerOk .walker .refusedSlot (fun _ => refusedSlotWritten) s)

/-- The returned count has been written: the GRANT completes, with the number of slots taken as detail
(R120, R121). -/
def returnedCountWritten (s : State) : State :=
  match s.walker.block with
  | none => s
  | some b =>
    match b.stage with
    | .count refused => complete (if refused = 0 then .done else .partly) (b.u8 33 - refused) s
    | _ => s

/-- WALKER_RETURNED_COUNT_DONE (R121). -/
def execWalkerReturnedCountDone (s : State) : Host.Outcome State Fault Refusal :=
  .next (answerOk .walker .walkerCount (fun _ => returnedCountWritten) s)

/-! ## After a block -/

/-- The continuation of a completed block (R165). -/
def continuationOf (b : Block) (code : Nat) : Continuation :=
  if b.flag 0 || (isRefusal code && b.flag 3) then .chainEnd else .next b.nextAddress

/-- The walker goes HALTED between blocks and holds the continuation (R165). -/
def haltAt (c : Continuation) (s : State) : State :=
  changeWalker (fun w =>
    { w with state := .halted, continuation := some c, haltRequest := false, block := none }) s

/-- A block is complete with an outcome code and its completion frame: its flags act, and the walker halts,
ends the chain or goes on (R165, R171). -/
def blockComplete (b : Block) (code : Nat) (frame : Frame) (s : State) : State :=
  let recorded := changeWalker (fun w =>
    { w with lastBlock := some (b.address, frame), lastTag := b.hostTag }) s
  let told := raiseIf (b.flag 2) .chain recorded
  if s.walker.state = .stopping then endChain (changeWalker (fun w => { w with haltRequest := false }) told)
  else if b.flag 1 || s.walker.haltRequest then haltAt (continuationOf b code) told
  else actOn (continuationOf b code) told

/-- The outcome burst has ended OK (R165). -/
def outcomeWritten (s : State) : State :=
  match s.walker.block with
  | none => s
  | some b =>
    match b.stage with
    | .outcome code _ frame => blockComplete b code frame s
    | _ => s

/-- OUTCOME_WRITE_DONE (R165). -/
def execOutcomeWriteDone (s : State) : Host.Outcome State Fault Refusal :=
  .next (answerOk .walker .outcome (fun _ => outcomeWritten) s)

/-! ## The requests of CONTROL -/

/-- A HALT request (R169). -/
def takeHalt (s : State) : State :=
  match s.walker.state with
  | .walking | .waiting => changeWalker (fun w => { w with haltRequest := true }) s
  | .idle | .halted | .stopping | .resetting => s

/-- HALT (R169). -/
def execHalt (s : State) : Host.Outcome State Fault Refusal := .next (takeHalt s)

/-- A RESUME request (R170). -/
def takeResume (s : State) : State :=
  match s.walker.state, s.walker.continuation with
  | .halted, some c => settle (actOn c (changeWalker (fun w => { w with continuation := none }) s))
  | _, _ => s

/-- RESUME (R170). -/
def execResume (s : State) : Host.Outcome State Fault Refusal := .next (takeResume s)

/-- A writer's RELINQUISH is withdrawn: a close still to come is withdrawn with it, and results already handed
over are no longer counted for it (R134). -/
def withdrawRelinquish (st : Stream) (s : State) : State :=
  let freed := putWriter st { s.writer st with relinquish := none } s
  { freed with page := { freed.page with
      results := freed.page.results.map fun r => if r.stream = st then { r with counted := false } else r } }

/-- The owner of a directive in flight withdraws it (R6, R32, R100, R134, R176). -/
def withdrawFlight (f : Flight) (s : State) : State :=
  match f with
  | .stopIntake =>
    if s.intake.state = .stopping then { s with intake := { s.intake with state := .running } } else s
  | .relinquish st => withdrawRelinquish st s
  | .roll | .cut | .loadTable | .frames _ | .drained => s

/-- The detail of an abandoned directive: the segments a RELINQUISH has returned so far, otherwise 0
(R171). -/
def abandonedDetail (f : Flight) (s : State) : Nat :=
  match f with
  | .relinquish st => (((s.writer st).relinquish).map Relinquish.returned).getD 0
  | .roll | .cut | .stopIntake | .loadTable | .frames _ | .drained => 0

/-- The walker goes STOPPING and its pending entry is discarded (R171). -/
def goStopping (s : State) : State :=
  changeWalker (fun w => { w with state := .stopping, pendingEntry := none }) s

/-- A STOP request (R171). -/
def takeStop (s : State) : State :=
  match s.walker.state with
  | .waiting =>
    match s.flight with
    | some f => settle (complete .abandoned (abandonedDetail f s) (withdrawFlight f (goStopping s)))
    | none => goStopping s
  | .walking => goStopping s
  | .halted => settle (endChain (changeWalker (fun w => { w with pendingEntry := none }) s))
  | .idle | .stopping | .resetting => s

/-- STOP (R171). -/
def execStop (s : State) : Host.Outcome State Fault Refusal := .next (takeStop s)

end Sys2Proof.Machine
end

