-- ==== Sys2Proof/Machine/Sync.lean ====
section
/-! DEFINITION. The Event Line Unit: the sync capture, filtering, and edges handed to their blocks
(chapter 8). -/

namespace Sys2Proof.Machine

/-! ## The sync capture -/

/-- The sync capture is changed by `f`. -/
def changeSync (f : SyncCapture → SyncCapture) (s : State) : State :=
  { s with lines := { s.lines with sync := f s.lines.sync } }

/-- A hit recorded: the runs, and the state after the table of R155. -/
def SyncCapture.afterHit (c : SyncCapture) : SyncCapture :=
  let hits := c.hitRun + 1
  match c.state with
  | .none => { c with hitRun := 0, missRun := 0, state := .locked }
  | .locked => { c with hitRun := hits, missRun := 0 }
  | .lost =>
    if 4 ≤ hits then { c with hitRun := 0, missRun := 0, state := .locked }
    else { c with hitRun := hits, missRun := 0 }

/-- A miss recorded: the runs, and the state after the table of R155. -/
def SyncCapture.afterMiss (c : SyncCapture) : SyncCapture :=
  let misses := c.missRun + 1
  match c.state with
  | .none | .locked =>
    if 4 ≤ misses then { c with hitRun := 0, missRun := 0, state := .lost }
    else { c with hitRun := 0, missRun := misses }
  | .lost => { c with hitRun := 0, missRun := misses }

/-- A hit or miss is recorded, and SYNC is raised where the state changes (R155). -/
def judge (result : CaptureResult) (s : State) : State :=
  let after := match result with
    | .hit => s.lines.sync.afterHit
    | .miss => s.lines.sync.afterMiss
  raiseIf (after.state != s.lines.sync.state) .sync (changeSync (fun _ => after) s)

/-- A capture's deviation: min(phase, 4096 − phase) (R153). -/
def deviation (phase : Nat) : Nat := min phase (4096 - phase)

/-- A capture's result under tolerance `w` (R153). -/
def captureResult (w phase : Nat) : CaptureResult := if deviation phase ≤ w then .hit else .miss

/-- The phase of an edge `t` nanoseconds after its reference, held at 4095 (R152; log entry 3). -/
def phaseOf (r : Rate) (t : Nat) : Nat := min (t * r.num * 4096 / (r.den * 1000000000)) 4095

/-- A capture at a phase: the last phase, deviation and result, the missing-edge count, and its judgement
(R152 to R155). -/
def capture (phase : Nat) (s : State) : State :=
  let result := captureResult s.lines.sync.tolerance phase
  judge result (changeSync (fun c =>
    { c with lastPhase := phase, last := some (deviation phase, result), missing := 0 }) s)

/-- An edge taken on the SYNC_REF line is a capture while intake is RUNNING and the reference is not none
(R152). In STOPPING it is none (log entry 40). -/
def syncEdge (time : Nat) (s : State) : State :=
  match s.intake.state, s.lines.sync.reference with
  | .running, some reference => capture (phaseOf s.rate (time - reference)) s
  | _, _ => s

/-- The number of the line with the role SYNC_REF, if one has it. -/
def syncLine (lines : List Line) : Option Nat := firstIndex (fun l => l.role == .syncRef) lines

/-- A frame start adds 1 to the missing-edge count, and the eighth records a miss (R154). -/
def countMissing (s : State) : State :=
  if s.lines.sync.missing + 1 < 8 then changeSync (fun c => { c with missing := c.missing + 1 }) s
  else judge .miss (changeSync (fun c => { c with missing := 0 }) s)

/-- A frame start reported at `time` reaches the sync capture (R152, R154). -/
def syncStart (time : Nat) (s : State) : State :=
  let referred := changeSync (fun c => { c with reference := some time }) s
  if (syncLine s.lines.lines).isSome then countMissing referred else referred

/-- Intake has gone STOPPED: the reference is none and the missing-edge count 0 (R152, R154). -/
def syncStopped (s : State) : State := changeSync (fun c => { c with reference := none, missing := 0 }) s

/-- Intake goes STOPPED (R6, R152, R154). -/
def goStopped (s : State) : State := syncStopped { s with intake := { s.intake with state := .stopped } }

/-! ## Levels and filters -/

/-- The raw level: what drives the line, or the pull (section 8.1). -/
def Line.raw (l : Line) : Level := l.drive.getD l.idle

/-- The line after its input is driven to `drive`: the filtered level follows at once under filter time 0;
otherwise a change away from the filtered level starts the timer, and a change back cancels it (R147). -/
def Line.driven (l : Line) (drive : Option Level) : Line :=
  let now := { l with drive := drive }
  if now.raw = l.raw then now
  else match l.filter with
    | .zero => { now with filtered := now.raw }
    | .quarter | .one | .four | .sixteen =>
      if now.raw = l.filtered then { now with timer := none }
      else match l.timer with
        | none => { now with timer := some now.raw }
        | some _ => now

/-- The line after its filter timer expires (R147). -/
def Line.expired (l : Line) : Line :=
  match l.timer with
  | none => l
  | some target => { l with filtered := target, timer := none }

/-! ## Edges -/

/-- An edge setting takes an edge that is RISING or not (R148). -/
def Edge.takes (e : Edge) (rising : Bool) : Bool :=
  match e with
  | .falling => !rising
  | .rising => rising
  | .both => true

/-- The line takes an edge to `level` (R148). -/
def Line.takes (l : Line) (level : Level) : Bool :=
  match l.role with
  | .none => false
  | .rollHold => true
  | .rollToggle | .markGood | .markFlag | .syncRef => l.edge.takes (level == .high)

/-- A request is handed to Clip Control (R149 to R151). -/
def handRequest (n : LineNo) (request : LineRequest) (s : State) : State :=
  { s with lines := { s.lines with requests := s.lines.requests ++ [(n, request)] } }

/-- A taken edge to `level` at `time` is handed to its block by the line's role (R149 to R152). -/
def handEdge (n : LineNo) (l : Line) (level : Level) (time : Nat) (s : State) : State :=
  match l.role with
  | .none => s
  | .rollToggle => handRequest n .toggle s
  | .rollHold => handRequest n (if level = l.active then .roll else .cut) s
  | .markGood => handRequest n (.mark .good) s
  | .markFlag => handRequest n (.mark .flag) s
  | .syncRef => syncEdge time s

/-- Line `n` becomes `after`; a change of its filtered level is an edge, which, if taken, raises LINEn and
is handed to its block (R147, R148). -/
def changeLine (n : LineNo) (time : Nat) (before after : Line) (s : State) : State :=
  let changed := { s with lines := { s.lines with lines := changeAt (fun _ => after) n.val s.lines.lines } }
  if after.filtered ≠ before.filtered ∧ after.takes after.filtered = true then
    handEdge n after after.filtered time (raise (.line n) changed)
  else changed

/-- A line of the six. -/
def State.line? (s : State) (n : LineNo) : Option Line := s.lines.lines[n.val]?

/-- The first request of a line that Clip Control has not yet taken. -/
def firstRequest (n : LineNo) (requests : List (LineNo × LineRequest)) : Option LineRequest :=
  (requests.find? fun q => q.1 == n).map Prod.snd

/-- The requests without the first of a line. -/
def withoutRequest (n : LineNo) : List (LineNo × LineRequest) → List (LineNo × LineRequest)
  | [] => []
  | q :: rest => if q.1 = n then rest else q :: withoutRequest n rest

/-- Clip Control takes the first request of a line. -/
def dropRequest (n : LineNo) (s : State) : State :=
  { s with lines := { s.lines with requests := withoutRequest n s.lines.requests } }

end Sys2Proof.Machine
end

