-- ==== Sys2Proof/Machine/Directives.lean ====
section
/-! DEFINITION. The directives that their owners take from the walker's hand: SETUP, TUNE, LINES,
LOAD_TABLE, GRANT, RELINQUISH, START_INTAKE, STOP_INTAKE, SET_TIMECODE and WAIT (sections 9.9 to 9.12). -/

namespace Sys2Proof.Machine

/-- A directive of a kind in its owner's hand is taken; with none there is nothing to take (log entry
15). -/
def takeDirective (kind : DirectiveKind) (act : Block → State → State) (s : State) : State :=
  match s.handedBlock kind with
  | none => s
  | some b => settle (act b s)

/-- The rate in force, if there is one. -/
def State.rate? (s : State) : Option Rate := s.intake.geometry.map fun g => rateOf g.code

/-! ## SETUP -/

/-- W and H are in their ranges (R3, check 2). -/
def sizeFits (f : SetupFields) : Bool :=
  f.width % 32 == 0 && decide (1280 ≤ f.width ∧ f.width ≤ 4096)
    && f.height % 8 == 0 && decide (720 ≤ f.height ∧ f.height ≤ 2176)

/-- The factor and the proxy size are allowed (R3, checks 3 and 4). -/
def factorFits (f : SetupFields) : Bool :=
  decide (2 ≤ f.factor ∧ f.factor ≤ 4)
    && f.width % f.factor == 0 && (f.width / f.factor) % 16 == 0
    && f.height % f.factor == 0 && (f.height / f.factor) % 4 == 0

/-- The throughput is within its limit (R3, check 6). -/
def throughputFits (f : SetupFields) (r : Rate) : Bool :=
  decide (f.width * f.height * r.num ≤ 1100000000 * r.den)

/-- The filter of a code: 0 SHORT, 1 LONG (R40). -/
def filterOfCode : Nat → Option Filter
  | 0 => some .short
  | 1 => some .long
  | _ => none

/-- The status-page address is allowed (R183). -/
def pageAddressFits (a : Nat) : Bool := a != 0 && decide (a < 2 ^ 48) && a % 256 == 0

/-- A SETUP checked: its refusal, or the geometry and filter it gives (R3, R40, R183). -/
def setupChecked (f : SetupFields) (s : State) : Except Verdict (Geometry × Filter) :=
  if s.intake.state ≠ .stopped then .error .busy
  else if !sizeFits f then .error .geometry
  else if !factorFits f then .error .geometry
  else if h : f.code < 12 then
    if !throughputFits f (rateOf ⟨f.code, h⟩) then .error .rate
    else match filterOfCode f.filter with
      | none => .error .geometry
      | some filter =>
        if pageAddressFits f.page then .ok (⟨f.width, f.height, f.factor, ⟨f.code, h⟩⟩, filter)
        else .error .range
  else .error .rate

/-- The roll floor becomes the next frame to start (R96). -/
def floorAtNext (s : State) : State := { s with clips := { s.clips with rollFloor := s.intake.counter } }

/-- A SETUP taken (R4, R40, R69, R78, R79, R96, R112, R183). -/
def setupTaken (g : Geometry) (filter : Filter) (address : Nat) (s : State) : State :=
  let r := rateOf g.code
  floorAtNext (discardHeld
    { s with
      intake := { s.intake with geometry := some g, timecode := legalLabel r s.intake.timecode }
      proxy := { s.proxy with filter := filter }
      page := { s.page with address := some address }
      governor := governorSetup r s.governor
      queue := { s.queue with limit := prerollLimit (some r) s.queue.depth } })

/-- SETUP carried out from its block (R3, R173). -/
def setupDirective (b : Block) (s : State) : State :=
  match setupChecked b.setupFields s with
  | .error verdict => complete verdict 0 s
  | .ok (g, filter) => complete .done 0 (setupTaken g filter b.setupFields.page s)

/-- SETUP (R3). -/
def execSetup (s : State) : Host.Outcome State Fault Refusal := .next (takeDirective .setup setupDirective s)

/-! ## TUNE -/

/-- 1 where a whole number in force differs from the one given. -/
def differsInt (taken given : Int) : Nat := if taken = given then 0 else 1

/-- How many of the class offsets differ from those given. -/
def countDifferentInt : List Int → List Int → Nat
  | a :: as, b :: bs => differsInt a b + countDifferentInt as bs
  | _, _ => 0

/-- The size cap taken for a given one (R29). -/
def handledCap (cap : Nat) : Nat := if cap = 0 then 0 else max cap 64

/-- The master settings a TUNE gives (R29). -/
def handledMaster (f : TuneFields) : MasterSettings :=
  ⟨clamp 1 63 f.qm, handledCap f.cap, f.offsets.map (clampInt (-8) 8)⟩

/-- How many master fields are adjusted (R29). -/
def masterAdjusted (f : TuneFields) : Nat :=
  let m := handledMaster f
  differs m.step f.qm + differs m.cap f.cap + countDifferentInt m.offsets f.offsets

/-- The master fields of a TUNE (R29). -/
def tuneMaster (f : TuneFields) (s : State) : State :=
  { s with master := { s.master with settings := handledMaster f } }

/-- The governor fields of a TUNE (R51, R64 to R67). -/
def tuneGovernor (f : TuneFields) (s : State) : State :=
  { s with governor := governorTune s.rate? f.governor s.governor }

/-- The effects of a changed pre-roll depth on held entries and the roll floor; `old` is the depth before,
`wasOn` whether pre-roll was on (R79, R96). -/
def depthEffects (old : Nat) (wasOn : Bool) (s : State) : State :=
  let held :=
    if s.queue.depth = old then s
    else if s.queue.depth = 0 then discardHeld s
    else if s.queue.depth < old then enforceLimit s
    else s
  if held.prerollOn && !wasOn then floorAtPrerollOn held else held

/-- The pre-roll depth of a TUNE (R78, R79). -/
def tuneDepth (f : TuneFields) (s : State) : State :=
  let depth := min f.depth 30
  depthEffects s.queue.depth s.prerollOn
    { s with queue := { s.queue with depth := depth, limit := prerollLimit s.rate? depth } }

/-- The high mark of a TUNE (R91). -/
def tuneHighMark (f : TuneFields) (s : State) : State :=
  let mark := clamp 50 95 f.highMark
  if mark = s.queue.highMark then s
  else refreshMarks { s with queue := { s.queue with highMark := mark } }

/-- The tally mode of a code, those above 2 clamped to FORCE_OFF (R113). -/
def tallyModeOf : Nat → TallyMode
  | 0 => .auto
  | 1 => .forceOn
  | _ => .forceOff

/-- The lamp under a tally mode that has changed (R115). -/
def lampUnder (mode : TallyMode) (s : State) : Lamp :=
  match mode with
  | .auto => if s.recording.isSome then .lit else .dark
  | .forceOn => .lit
  | .forceOff => .dark

/-- The tally mode of a TUNE: a change sets the lamp and ends a blink (R115). -/
def tuneTally (f : TuneFields) (s : State) : State :=
  let mode := tallyModeOf f.tally
  if mode = s.clips.tallyMode then s
  else { s with clips := { s.clips with tallyMode := mode, lamp := lampUnder mode s, blinkTimer := none } }

/-- The blink time taken for a given one (R113). -/
def handledBlink (ms : Nat) : Nat := if ms = 0 then 0 else clamp 50 500 ms

/-- The blink time of a TUNE (R113, R115). -/
def tuneBlink (f : TuneFields) (s : State) : State :=
  { s with clips := { s.clips with blinkTime := handledBlink f.blink } }

/-- The courtesy-gap count held at 0 under gap time 0 (R137). -/
def holdGap (gapTime : Nat) (w : Writer) : Writer := if gapTime = 0 then { w with gapCount := 0 } else w

/-- The gap time and retry multiplier of a TUNE (R136, R137). -/
def tuneGap (f : TuneFields) (s : State) : State :=
  let gapTime := min f.gapTime 1000
  { s with writers := { s.writers with
      gapTime := gapTime
      retry := min f.retry 15
      streams := s.writers.streams.map fun _ w => holdGap gapTime w } }

/-- The watermark of a TUNE (R124, R136). -/
def tuneWatermark (f : TuneFields) (s : State) : State :=
  let watermark := min f.watermark 47
  if watermark = s.writers.watermark then s
  else refreshBelow .proxy (refreshBelow .master
    { s with writers := { s.writers with watermark := watermark } })

/-- A priority field is HIGH (R136). -/
def isHigh (f : TuneFields) (k : Nat) : Bool := f.priorities.getD k 0 != 0

/-- The priorities of a TUNE (R136). -/
def tunePriorities (f : TuneFields) (s : State) : State :=
  { s with arbiter := { s.arbiter with high := ⟨isHigh f 0, isHigh f 1, isHigh f 2, isHigh f 3⟩ } }

/-- The tolerance of a TUNE: the field arrives whole (R190), and its owner's clamp brings a value above 2048 to 2048
(R153). R190's 300 goes through that clamp as it is (log entry 38). -/
def tuneTolerance (f : TuneFields) (s : State) : State :=
  changeSync (fun c => { c with tolerance := min f.tolerance 2048 }) s

/-- How many of the priorities are clamped (R136). -/
def prioritiesAdjusted (f : TuneFields) : Nat := (f.priorities.filter fun p => decide (1 < p)).length

/-- How many of the 25 fields are adjusted (R173). -/
def tuneAdjusted (f : TuneFields) : Nat :=
  masterAdjusted f + governorAdjusted f.governor + differs (min f.depth 30) f.depth
    + differs (clamp 50 95 f.highMark) f.highMark + (if 2 < f.tally then 1 else 0)
    + differs (handledBlink f.blink) f.blink + differs (min f.watermark 47) f.watermark
    + differs (min f.retry 15) f.retry + differs (min f.gapTime 1000) f.gapTime
    + prioritiesAdjusted f + differs (min f.tolerance 2048) f.tolerance

/-- The 25 fields taken, each in its own block (R173). Within the Queue Manager the pre-roll depth is taken
before the high mark (R79, R91; log entry 37). -/
def tuneTaken (f : TuneFields) (s : State) : State :=
  tuneTolerance f (tunePriorities f (tuneWatermark f (tuneGap f (tuneBlink f (tuneTally f
    (tuneHighMark f (tuneDepth f (tuneGovernor f (tuneMaster f s)))))))))

/-- TUNE carried out from its block (R173). -/
def tuneDirective (b : Block) (s : State) : State :=
  let adjusted := tuneAdjusted b.tuneFields
  complete (doneVerdict adjusted) adjusted (tuneTaken b.tuneFields s)

/-- TUNE (R173). -/
def execTune (s : State) : Host.Outcome State Fault Refusal := .next (takeDirective .tune tuneDirective s)

/-! ## LINES -/

/-- The role of a code (section 8.2). -/
def roleOfCode : Nat → Option Role
  | 0 => some .none
  | 1 => some .rollToggle
  | 2 => some .rollHold
  | 3 => some .markGood
  | 4 => some .markFlag
  | 5 => some .syncRef
  | _ => none

/-- The edge setting of a code (section 8.2). -/
def edgeOfCode : Nat → Option Edge
  | 0 => some .falling
  | 1 => some .rising
  | 2 => some .both
  | _ => none

/-- The level of a code (section 8.2). -/
def levelOfCode : Nat → Option Level
  | 0 => some .low
  | 1 => some .high
  | _ => none

/-- The filter time of a code (section 8.2). -/
def filterTimeOfCode : Nat → Option FilterTime
  | 0 => some .zero
  | 1 => some .quarter
  | 2 => some .one
  | 3 => some .four
  | 4 => some .sixteen
  | _ => none

/-- A line under new settings: its timer cancelled, its filtered level the raw level under the new pull;
nothing where a code is out of range (R145, R146). -/
def lineUnder (f : LineFields) (l : Line) : Option Line :=
  match roleOfCode f.role, edgeOfCode f.edge, levelOfCode f.active, levelOfCode f.idle,
    filterTimeOfCode f.filter with
  | some role, some edge, some active, some idle, some filter =>
    some
      { role := role, edge := edge, active := active, idle := idle, filter := filter, drive := l.drive
        filtered := l.drive.getD idle, timer := none }
  | _, _, _, _, _ => none

/-- The lines from number `m` on under the settings of a block, unless a code is out of range (R145). -/
def linesUnder (b : Block) : Nat → List Line → Option (List Line)
  | _, [] => some []
  | m, l :: rest =>
    match lineUnder (b.lineFields m) l, linesUnder b (m + 1) rest with
    | some l', some rest' => some (l' :: rest')
    | _, _ => none

/-- The sync capture after SYNC_REF has gone from one line, or none, to another (R146). -/
def syncAfter (before after : Option Nat) (c : SyncCapture) : SyncCapture :=
  if before = after then c else { c with state := .none, hitRun := 0, missRun := 0, missing := 0 }

/-- The settings of a LINES take effect (R146). -/
def linesTaken (lines : List Line) (s : State) : State :=
  let sync := syncAfter (syncLine s.lines.lines) (syncLine lines) s.lines.sync
  raiseIf (sync.state != s.lines.sync.state) .sync
    { s with lines := { s.lines with lines := lines, sync := sync } }

/-- LINES carried out from its block (R145, R146). -/
def linesDirective (b : Block) (s : State) : State :=
  match linesUnder b 0 s.lines.lines with
  | none => complete .range 0 s
  | some lines =>
    if 1 < (lines.filter fun l => l.role == .syncRef).length then complete .range 0 s
    else complete .done 0 (linesTaken lines s)

/-- LINES (R145). -/
def execLines (s : State) : Host.Outcome State Fault Refusal := .next (takeDirective .lines linesDirective s)

/-! ## LOAD_TABLE -/

/-- A LOAD_TABLE's fields pass their checks (R31, R47). -/
def loadFits (f : LoadFields) : Bool :=
  decide (f.source < 2 ^ 48) &&
    (if f.table = 0 then decide (f.start ≤ 63 ∧ 1 ≤ f.count ∧ f.count ≤ 64 ∧ f.start + f.count ≤ 64)
     else if f.table = 1 then f.start == 0 && f.count == 33
     else false)

/-- The state of the table that a LOAD_TABLE names. -/
def loadState (f : LoadFields) (s : State) : TableState :=
  if f.table = 0 then s.master.tableState else s.proxy.curveState

/-- LOAD_TABLE taken from its block: it waits for READY, or begins to read its source (R31, R32, R47,
R48). -/
def loadDirective (b : Block) (s : State) : State :=
  if loadFits b.loadFields then
    match loadState b.loadFields s with
    | .initialising => goOrAbandon .loadTable s
    | .ready => requestSource b [] s
  else complete .range 0 s

/-- LOAD_TABLE (R31). -/
def execLoadTable (s : State) : Host.Outcome State Fault Refusal :=
  .next (takeDirective .loadTable loadDirective s)

/-! ## GRANT -/

/-- The start addresses of the segments that the part holds, in either stream and in any place (R118,
R120). -/
def State.heldStarts (s : State) : List Nat :=
  let listed := fun st => (s.writer st).segments.map Segment.start
  let current := fun st => ((s.writer st).current.map fun c => c.segment.start).toList
  listed .master ++ listed .proxy ++ current .master ++ current .proxy
    ++ s.page.results.map fun r => r.segment.start

/-- A slot's address and length are allowed (R120). -/
def slotForm (g : GrantSlot) : Bool :=
  g.address % 4096 == 0 && g.length % 4096 == 0 && decide (65536 ≤ g.length ∧ g.length ≤ 16777216)
    && decide (g.address < 2 ^ 48 ∧ g.address + g.length ≤ 2 ^ 48)

/-- The refusal of a slot, if it is refused, with the start addresses held and the list's count (R120). -/
def slotRefusal (held : List Nat) (listed : Nat) (g : GrantSlot) : Option Reason :=
  if !slotForm g then some .refusedForm
  else if held.contains g.address then some .refusedDuplicate
  else if 48 ≤ listed then some .refusedFull
  else none

/-- The slots of a GRANT from slot `i` on, `left` of them: the segments taken and the slots refused, in slot
order (R120). -/
def gradeSlots (b : Block) : Nat → Nat → List Nat → Nat → List Segment × List (Nat × Reason)
  | 0, _, _, _ => ([], [])
  | left + 1, i, held, listed =>
    let g := b.grantSlot i
    match slotRefusal held listed g with
    | some reason =>
      let rest := gradeSlots b left (i + 1) held listed
      (rest.1, (i, reason) :: rest.2)
    | none =>
      let rest := gradeSlots b left (i + 1) (g.address :: held) (listed + 1)
      (⟨g.address, g.length, b.address, i⟩ :: rest.1, rest.2)

/-- A GRANT checked as a whole: its refusal, or the stream it names (R119). -/
def grantChecked (b : Block) (s : State) : Except Verdict Stream :=
  match streamOfCode (b.u8 32) with
  | none => .error .range
  | some st =>
    if b.u8 33 = 0 ∨ 8 < b.u8 33 ∨ b.u8 33 ≠ b.units - 2 then .error .range
    else if s.writers.grants.any fun g => g.block == b.address then .error .busy
    else .ok st

/-- The grant records with that of a GRANT just taken, unless every slot of it was refused (R118, R120; log
entry 16). -/
def grantsAfter (b : Block) (st : Stream) (refused : Nat) (grants : List GrantRecord) : List GrantRecord :=
  if refused = b.u8 33 then grants else grants ++ [⟨b.address, st, b.u8 33, refused⟩]

/-- A GRANT taken for a stream: its slots are taken or refused, its record is made, and the walker begins its
writes (R120, R121). -/
def grantTaken (b : Block) (st : Stream) (s : State) : State :=
  let graded := gradeSlots b (b.u8 33) 0 s.heldStarts (s.writer st).segments.length
  let refused := graded.2.length
  let listed := putSegments st ((s.writer st).segments ++ graded.1) s
  let recorded := { listed with writers := { listed.writers with
    grants := grantsAfter b st refused listed.writers.grants } }
  requestGrantWrite b refused graded.2 (changeBlock (fun c => { c with granted := true }) recorded)

/-- GRANT carried out from its block (R119 to R121). -/
def grantDirective (b : Block) (s : State) : State :=
  match grantChecked b s with
  | .error verdict => complete verdict 0 s
  | .ok st => grantTaken b st s

/-- GRANT (R119). -/
def execGrant (s : State) : Host.Outcome State Fault Refusal := .next (takeDirective .grant grantDirective s)

/-! ## RELINQUISH -/

/-- An entry is mid-write in the current segment: some of its bytes lie there and its last is not written
(R133). -/
def midWrite (w : Writer) (c : Current) : Bool := w.written != 0 && c.position != 0

/-- The current segment of a stream closes at once for a RELINQUISH, a burst that waits for it being
withdrawn (R133; log entry 17). -/
def closeAtOnce (st : Stream) (s : State) : State :=
  let w := s.writer st
  let marked := putWriter st { w with relinquish := some ⟨some .afterBurst, 0⟩ } s
  closeSegment st .relinquished (withdrawBurst (writerRequester st) marked)

/-- A RELINQUISH is in the hand of a stream's writer, with the close of the current segment that R133
gives. -/
def beginRelinquish (st : Stream) (closeCurrent : Bool) (s : State) : State :=
  let w := s.writer st
  let waiting := fun when_ => putWriter st { w with relinquish := some ⟨when_, 0⟩ } s
  match closeCurrent, w.current with
  | true, some c =>
    if midWrite w c then waiting (some .afterEntry)
    else if s.inProgress (writerRequester st) then waiting (some .afterBurst)
    else closeAtOnce st s
  | _, _ => waiting none

/-- RELINQUISH taken from its block (R132, R133). While the walker is STOPPING it is abandoned with nothing
returned (R171; log entry 17). -/
def relinquishDirective (b : Block) (s : State) : State :=
  match streamOfCode (b.u8 32) with
  | none => complete .range 0 s
  | some st =>
    if s.walker.state = .stopping then complete .abandoned 0 s
    else beginRelinquish st (b.u8 33 != 0) (goInFlight (.relinquish st) s)

/-- RELINQUISH (R132). -/
def execRelinquish (s : State) : Host.Outcome State Fault Refusal :=
  .next (takeDirective .relinquish relinquishDirective s)

/-! ## Intake, timecode and WAIT -/

/-- START_INTAKE taken: RUNNING, a full burst of credit, held entries and marks discarded, and the roll floor
at the next frame (R5, R69, R79, R96, R112). -/
def startIntake (s : State) : State :=
  floorAtNext (discardHeld
    { s with intake := { s.intake with state := .running }, governor := startCredit s.governor })

/-- START_INTAKE carried out (R5; log entry 18 for STOPPING). -/
def startDirective (_b : Block) (s : State) : State :=
  match s.intake.state with
  | .stopped => if s.intake.geometry.isSome then complete .done 0 (startIntake s) else complete .noSetup 0 s
  | .running | .stopping => complete .already 0 s

/-- START_INTAKE (R5). -/
def execStartIntake (s : State) : Host.Outcome State Fault Refusal :=
  .next (takeDirective .startIntake startDirective s)

/-- STOP_INTAKE taken while RUNNING: STOPPED at once if drained, STOPPING otherwise; under a walker that is
STOPPING it is abandoned and intake stays RUNNING (R6, R171). -/
def stopIntake (s : State) : State :=
  if s.isDrained then complete .done 0 (goStopped s)
  else if s.walker.state = .stopping then complete .abandoned 0 s
  else goInFlight .stopIntake { s with intake := { s.intake with state := .stopping } }

/-- STOP_INTAKE carried out (R6; log entry 18 for STOPPING). -/
def stopDirective (_b : Block) (s : State) : State :=
  match s.intake.state with
  | .stopped | .stopping => complete .already 0 s
  | .running => if s.recording.isSome then complete .busy 0 s else stopIntake s

/-- STOP_INTAKE (R6). -/
def execStopIntake (s : State) : Host.Outcome State Fault Refusal :=
  .next (takeDirective .stopIntake stopDirective s)

/-- A label's fields are in range under a rate (R18, checks 2 and 3). -/
def labelFits (r : Rate) (l : Label) : Bool :=
  decide (l.hours ≤ 23 ∧ l.minutes ≤ 59 ∧ l.seconds ≤ 59 ∧ l.frames < r.base) && (!l.drop || r.skip != 0)

/-- The timecode counter takes a label (R18). -/
def putLabel (l : Label) (s : State) : State := { s with intake := { s.intake with timecode := l } }

/-- SET_TIMECODE carried out from its block (R18). -/
def timecodeDirective (b : Block) (s : State) : State :=
  match s.rate? with
  | none => complete .noSetup 0 s
  | some r =>
    if labelFits r b.labelField then
      if isSkipped r b.labelField then
        complete .doneAdjusted 1 (putLabel (raiseSkipped r b.labelField) s)
      else complete .done 0 (putLabel b.labelField s)
    else complete .range 0 s

/-- SET_TIMECODE (R18). -/
def execSetTimecode (s : State) : Host.Outcome State Fault Refusal :=
  .next (takeDirective .setTimecode timecodeDirective s)

/-- WAIT taken from its block (R176). -/
def waitDirective (b : Block) (s : State) : State :=
  if b.u8 32 = 0 then
    if b.field 34 2 = 0 then complete .range 0 s else goOrAbandon (.frames (b.field 34 2)) s
  else if b.u8 32 = 1 then
    if drainedHolds s then complete .done 0 s else goOrAbandon .drained s
  else complete .range 0 s

/-- WAIT (R176). -/
def execWait (s : State) : Host.Outcome State Fault Refusal := .next (takeDirective .wait waitDirective s)

end Sys2Proof.Machine
end

