-- ==== Sys2Proof/Machine/Intake.lean ====
section
/-! DEFINITION. The commands that reach Picture Intake: FULL_RESET, FRAME_START, LINE, FRAME_END and
INTAKE_DRAINED (chapter 1), and the coders' four (chapters 2 and 3). -/

namespace Sys2Proof.Machine

/-! ## Full reset -/

/-- The state after full reset, with the levels that drive the event lines, the waiting commands and what
shared memory holds as they stand (R2, R143, R144; log entry 6). A burst in progress is dropped with the waiting
ones, and the port is free (log entry 43). -/
def fullReset (s : State) : State :=
  { State.reset with
    pending := s.pending
    lines := { State.reset.lines with lines := s.lines.lines.map fun l => Line.reset l.drive }
    shared := s.shared
    freeTag := s.freeTag }

/-- FULL_RESET (R2). -/
def execFullReset (s : State) : Host.Outcome State Fault Refusal := .next (fullReset s)

/-! ## The end of a frame -/

/-- The frame in arrival is none. -/
def clearArrival (s : State) : State := { s with intake := { s.intake with arrival := none } }

/-- A frame with a slot ends malformed: its slot is FREE, the failure is counted and reported, and its
number is recorded as a gap (R12). -/
def endMalformed (a : Arrival) (slot : Nat) (s : State) : State :=
  let freed := putSlot slot Slot.empty (clearArrival s)
  let counted := { freed with intake :=
    { freed.intake with malformed := countUp countMax freed.intake.malformed 1 } }
  recordGap a.frame a.label
    (reportFault ⟨.frameMalformed, .pictureIntake, none, some a.frame, none⟩ (raise .intake counted))

/-- A frame with a slot ends good: its slot is READY for both coders, and its slot item is appended to both
lists (R12). -/
def endGood (a : Arrival) (slot : Nat) (s : State) : State :=
  let ready := { s with slots := changeAt (fun x => { x with state := .ready, refs := 2 }) slot s.slots }
  appendSlotItem ⟨slot, a.frame, a.label, a.unlocked, a.phase⟩ (clearArrival ready)

/-- A frame still in arrival is ended without its own marker: malformed with a slot, without further effect
if lost; and the coders take what they can (R2, R9, R13). -/
def endUnmarked (s : State) : State :=
  match s.intake.arrival with
  | none => s
  | some a =>
    match a.slot with
    | none => clearArrival s
    | some slot => runCoders (endMalformed a slot s)

/-! ## Frame start -/

/-- A lost frame is counted, reported and recorded as a gap (R10). -/
def loseFrame (a : Arrival) (s : State) : State :=
  let counted := { s with intake := { s.intake with lost := countUp countMax s.intake.lost 1 } }
  recordGap a.frame a.label
    (reportFault ⟨.frameLost, .pictureIntake, none, some a.frame, none⟩ (raise .intake counted))

/-- The frame that starts now: the counter's number, the timecode's label, the stamp of the sync capture,
and the lowest FREE slot (R9). -/
def newArrival (s : State) : Arrival where
  frame := s.intake.counter
  label := s.intake.timecode
  unlocked := s.lines.sync.state == .lost
  phase := s.lines.sync.lastPhase
  slot := s.freeSlot
  lines := 0
  bad := false

/-- A frame starts: both counters advance, and the frame claims its slot or is lost (R9, R10, R17). -/
def startFrame (s : State) : State :=
  let a := newArrival s
  let started := { s with intake := { s.intake with
    counter := s.intake.counter + 1
    timecode := nextLabel s.rate s.intake.timecode
    arrival := some a } }
  match a.slot with
  | some slot => putSlot slot ⟨.filling, 0, []⟩ started
  | none => runCoders (loseFrame a started)

/-- A frame start counts toward a WAIT for FRAMES in flight, which completes at its last (R176). -/
def countWait (s : State) : State :=
  match s.flight with
  | some (.frames n) => if n ≤ 1 then complete .done 0 s else putStage (.inFlight (.frames (n - 1))) s
  | _ => s

/-- A frame start is reported, with its number and time, to Clip Control, the sync capture, the Page Writer
and the walker (R9). -/
def reportStart (frame : Frame) (time : Nat) (s : State) : State :=
  let recent := { s with clips := { s.clips with recentStart := some frame } }
  countWait (oweRewrite (syncStart time recent))

/-- A frame-start marker at `time` (R2, R9, R13). -/
def frameStart (time : Nat) (s : State) : State :=
  match s.intake.state with
  | .stopped => s
  | .stopping => settle (endUnmarked s)
  | .running =>
    let ended := endUnmarked s
    settle (reportStart ended.intake.counter time (startFrame ended))

/-- FRAME_START (R9). -/
def execFrameStart (time : Nat) (s : State) : Host.Outcome State Fault Refusal := .next (frameStart time s)

/-! ## Lines -/

/-- The frame in arrival after a line: counted, and bad where the line is a bad line, a misfit line or one
beyond the H-th (R1, R11). -/
def lineTaken (g : Geometry) (pixels : List Pixel) (check : BitVec 16) (a : Arrival) : Arrival :=
  { a with
    lines := a.lines + 1
    bad := a.bad || checkSum pixels != check || pixels.length != g.width || decide (g.height ≤ a.lines) }

/-- A slot after a line of the frame that fills it: the first W pixels of the line, while the frame has
fewer than H lines (R1). -/
def slotFilled (g : Geometry) (pixels : List Pixel) (a : Arrival) (slot : Slot) : Slot :=
  if a.lines < g.height then { slot with lines := slot.lines ++ [pixels.take g.width] } else slot

/-- A line on the pixel link: taken as part of a frame in arrival with a slot, discarded otherwise (R1, R2,
R10, R11). -/
def takeLine (pixels : List Pixel) (check : BitVec 16) (s : State) : State :=
  match s.intake.state, s.intake.arrival with
  | .stopped, _ => s
  | _, none => s
  | _, some a =>
    match a.slot with
    | none => s
    | some slot =>
      let g := s.pictureGeometry
      { s with
        intake := { s.intake with arrival := some (lineTaken g pixels check a) }
        slots := changeAt (slotFilled g pixels a) slot s.slots }

/-- LINE (R11). -/
def execLine (pixels : List Pixel) (check : BitVec 16) (s : State) : Host.Outcome State Fault Refusal :=
  .next (takeLine pixels check s)

/-! ## Frame end -/

/-- The frame in arrival is good at its own frame-end marker (R12). -/
def Arrival.good (a : Arrival) (g : Geometry) : Bool := !a.bad && a.lines == g.height

/-- A frame-end marker (R1, R2, R12). -/
def frameEnd (s : State) : State :=
  match s.intake.state, s.intake.arrival with
  | .stopped, _ => s
  | _, none => s
  | _, some a =>
    match a.slot with
    | none => clearArrival s
    | some slot =>
      if a.good s.pictureGeometry then settle (runCoders (endGood a slot s))
      else settle (runCoders (endMalformed a slot s))

/-- FRAME_END (R12). -/
def execFrameEnd (s : State) : Host.Outcome State Fault Refusal := .next (frameEnd s)

/-! ## Draining -/

/-- Intake has become drained in STOPPING: it goes STOPPED, and the waiting STOP_INTAKE completes (R6). -/
def intakeDrained (s : State) : State :=
  if s.intake.state = .stopping ∧ s.isDrained = true then
    let stopped := goStopped s
    settle (if stopped.flight = some .stopIntake then complete .done 0 stopped else stopped)
  else s

/-- INTAKE_DRAINED (R6). -/
def execIntakeDrained (s : State) : Host.Outcome State Fault Refusal := .next (intakeDrained s)

/-! ## The coders -/

/-- ATTEMPT_END (R25 to R28). -/
def execAttemptEnd (payload : Nat) (s : State) : Host.Outcome State Fault Refusal :=
  .next (settle (endAttempt payload s))

/-- PROXY_CODING_END (R43, R44). -/
def execProxyCodingEnd (payload : Nat) (s : State) : Host.Outcome State Fault Refusal :=
  .next (settle (endProxyCoding payload s))

/-- A LOAD_TABLE in flight for the table numbered `table` goes on to read its source (R32, R48). -/
def resumeLoad (table : Nat) (s : State) : State :=
  match s.walker.block with
  | none => s
  | some b => if b.stage = .inFlight .loadTable ∧ b.loadFields.table = table then requestSource b [] s else s

/-- Self-initialisation of the activity table ends with class 1 in every entry (R30). -/
def activityReady (s : State) : State :=
  match s.master.tableState with
  | .ready => s
  | .initialising =>
    settle (resumeLoad 0
      { s with master := { s.master with table := List.replicate 64 1, tableState := .ready } })

/-- ACTIVITY_TABLE_INIT_END (R30). -/
def execActivityTableInitEnd (s : State) : Host.Outcome State Fault Refusal := .next (activityReady s)

/-- Self-initialisation of the look curve ends with the identity curve (R46). -/
def curveReady (s : State) : State :=
  match s.proxy.curveState with
  | .ready => s
  | .initialising =>
    settle (resumeLoad 1
      { s with proxy := { s.proxy with curve := identityCurve, curveState := .ready } })

/-- LOOK_CURVE_INIT_END (R46). -/
def execLookCurveInitEnd (s : State) : Host.Outcome State Fault Refusal := .next (curveReady s)

end Sys2Proof.Machine
end

