-- ==== Sys2Proof/Machine/Registers.lean ====
section
/-! DEFINITION. The commands that a host's register write brings, the host's writes to CONTROL's FREEZE and
ENGINE_RESET, NOTICE, NOTICE_MASK and the ignored offsets, and the completion of an engine reset
(chapter 10). -/

namespace Sys2Proof.Machine

/-! ## Register writes -/

/-- A command where a bit of a written value is 1. -/
def whenSet (v : BitVec 32) (position : Nat) (c : Instr) : List Instr := if v.getLsbD position then [c] else []

/-- The commands of a CONTROL write (R179): the FREEZE level of bit 3, and one request for each of the bits 0
HALT, 1 RESUME, 2 STOP and 4 ENGINE_RESET written as 1. Bits 5 to 31 name nothing. The requests are separate
events, and the manual lets either be taken first; this is one of the orders (log entry 10). -/
def controlCommands (v : BitVec 32) : List Instr :=
  .freeze (v.getLsbD 3) :: (whenSet v 0 .halt ++ whenSet v 1 .resume ++ whenSet v 2 .stop ++ whenSet v 4 .engineReset)

/-- The commands that a 32-bit write of the host at an offset of the register window brings (R178 to R180).
DESIGN CHOICE: the manual gives no access at an offset from 0x01 to 0x13 that is none of the five registers;
a write there is taken as an ignored one (log entry 11). -/
def writeCommands (offset : BitVec 5) (v : BitVec 32) : List Instr :=
  if offset = 0x04 then [.entry v]
  else if offset = 0x08 then controlCommands v
  else if offset = 0x0C then [.notice v]
  else if offset = 0x10 then [.noticeMask v]
  else [.ignoredRegisterWrite offset v]

/-- A register write of the host reaches the part: its commands join the queue of those that wait. -/
def hostWrite (offset : BitVec 5) (v : BitVec 32) (s : State) : State :=
  { s with pending := s.pending ++ writeCommands offset v }

/-! ## FREEZE -/

/-- FREEZE is set: a rewrite that waits and has not begun is withdrawn, and stays owed (R186). -/
def freezeSet (s : State) : State :=
  let withdrawn := if rewriteWaits s then withdrawBurst .page s else s
  { withdrawn with notices := { withdrawn.notices with freeze := true } }

/-- FREEZE is released: a rewrite is owed (R186). -/
def freezeReleased (s : State) : State := oweRewrite { s with notices := { s.notices with freeze := false } }

/-- A CONTROL write's FREEZE level: only a change of the level acts (R179, R186). -/
def takeFreeze (level : Bool) (s : State) : State :=
  if level = s.notices.freeze then s
  else settle (if level then freezeSet s else freezeReleased s)

/-- FREEZE (R186). -/
def execFreeze (level : Bool) (s : State) : Host.Outcome State Fault Refusal := .next (takeFreeze level s)

/-! ## NOTICE and NOTICE_MASK -/

/-- A write to NOTICE clears the notices written as 1, and one that clears FAULT empties the error log
(R180, R182). -/
def writeNotice (value : BitVec 32) (s : State) : State :=
  let pending := s.notices.pending &&& ~~~value.setWidth 22
  if value.getLsbD 14 then { s with notices := { s.notices with pending := pending, log := none, later := 0 } }
  else { s with notices := { s.notices with pending := pending } }

/-- NOTICE (R182). -/
def execNotice (value : BitVec 32) (s : State) : Host.Outcome State Fault Refusal := .next (writeNotice value s)

/-- A write to NOTICE_MASK sets all 22 enable bits (R180). -/
def writeMask (value : BitVec 32) (s : State) : State :=
  { s with notices := { s.notices with mask := value.setWidth 22 } }

/-- NOTICE_MASK (R180). -/
def execNoticeMask (value : BitVec 32) (s : State) : Host.Outcome State Fault Refusal := .next (writeMask value s)

/-- IGNORED_REGISTER_WRITE (R178): no effect. -/
def execIgnoredRegisterWrite (_offset : BitVec 5) (_value : BitVec 32) (s : State) :
    Host.Outcome State Fault Refusal := .next s

/-! ## Engine reset -/

/-- Picture Intake, the Slot Pool and the coders at the beginning of an engine reset (R2, R7, R15, R19, R34,
R50, R70). -/
def resetPictures (s : State) : State :=
  { s with
    intake := { s.intake with state := .stopped, arrival := none, lost := 0, malformed := 0 }
    slots := List.replicate 16 Slot.empty
    inputs := ⟨[], []⟩
    master := { s.master with picture := none }
    proxy := { s.proxy with picture := none }
    governor := governorEngineReset (s.intake.geometry.map fun g => rateOf g.code) s.governor }

/-- The Queue Manager and Clip Control at the beginning of an engine reset (R93, R114, R117). -/
def resetClips (s : State) : State :=
  { s with
    queue := { s.queue with queues := ⟨⟨[], false⟩, ⟨[], false⟩⟩, intakeMarks := ⟨none, none⟩, agingLine := 0 }
    clips := { s.clips with
      table := List.replicate 4 none
      rollFloor := 0
      held := []
      heldLost := 0
      lamp := if s.clips.tallyMode = .forceOn then .lit else .dark
      blinkTimer := none } }

/-- A writer at the beginning of an engine reset: its gap, its spells and its RELINQUISH end (R125, R134,
R142). -/
def Writer.cleared (w : Writer) : Writer :=
  { w with
    written := 0, gapCount := 0, gapTimer := none, spell := false, spells := 0, relinquish := none }

/-- The attempt counts at the beginning of an engine reset: 0, but for a burst of the Page Writer, which is not
reset, that waits or is in progress (R143, R188; log entry 35). -/
def Arbiter.resetAttempts (a : Arbiter) : Quad Nat :=
  ⟨0, if a.bursts.page.isSome then a.attempts.page else 0, 0, 0⟩

/-- The arbiter at the beginning of an engine reset: bursts of the walker and the writers that wait are
withdrawn, one of the Page Writer goes on waiting (log entry 35), and one in progress, whoever's it is, is
still to end (R142, R143, R172, R188, R189). -/
def Arbiter.cleared (a : Arbiter) : Arbiter :=
  let keep := fun r => if a.port = some r then a.bursts.get r else none
  { a with
    bursts := ⟨keep .walker, a.bursts.page, keep .master, keep .proxy⟩
    attempts := a.resetAttempts
    resetBurst := a.port.isSome
    position := .proxy
    retries := 0 }

/-- The Stream Writers, the arbiter and the waiting results at the beginning of an engine reset (R142; log
entry 19). The Page Writer is not reset: the kind it made last stays until the completion (R187, R188). -/
def resetWriters (s : State) : State :=
  { s with
    writers := { s.writers with streams := s.writers.streams.map fun _ w => w.cleared }
    arbiter := s.arbiter.cleared
    page := { s.page with results := s.page.results.map fun r => { r with counted := false } } }

/-- The sync capture at the beginning of an engine reset (R155, R158). -/
def resetSync (s : State) : State :=
  raiseIf (s.lines.sync.state != .none) .sync
    (changeSync (fun c =>
      { c with
        reference := none, lastPhase := 0, hitRun := 0, missRun := 0, missing := 0, state := .none }) s)

/-- The walker at the beginning of an engine reset (R172). -/
def resetWalker (s : State) : State :=
  changeWalker (fun w => { w.cleared with state := .resetting, haltRequest := false, pendingEntry := none }) s

/-- The beginning of an engine reset in every block (R188). -/
def beginReset (s : State) : State := resetSync (resetWalker (resetWriters (resetClips (resetPictures s))))

/-- The part holds no segment, and no burst that was in progress when the engine reset began is still to end
(R189). -/
def resetMayComplete (s : State) : Bool :=
  !s.arbiter.resetBurst && s.page.results.isEmpty
    && (s.writer .master).segments.isEmpty && (s.writer .master).current.isNone
    && (s.writer .proxy).segments.isEmpty && (s.writer .proxy).current.isNone

/-- An engine reset completes: RESET_DONE is raised and the walker goes IDLE, the counts that read 0 after an
engine reset, the attempt counts of all four requesters among them, being 0 again (R142, R143, R187, R189; log
entries 19 and 35). -/
def completeReset (s : State) : State :=
  raise .resetDone (changeWalker (fun w => { w with state := .idle })
    { s with
      writers := { s.writers with streams := s.writers.streams.map fun _ w => { w with spells := 0 } }
      arbiter := { s.arbiter with position := .proxy, retries := 0, attempts := ⟨0, 0, 0, 0⟩ }
      page := { s.page with lastKind := .result } })

/-- An ENGINE_RESET request: no effect while one is in progress; it completes at once where the part holds no
segment and no burst was in progress (R179, R188, R189). -/
def engineReset (s : State) : State :=
  if s.resetting then s
  else
    let begun := beginReset s
    settle (if resetMayComplete begun then completeReset begun else begun)

/-- ENGINE_RESET (R188). -/
def execEngineReset (s : State) : Host.Outcome State Fault Refusal := .next (engineReset s)

/-- The completion of the engine reset in progress, once its conditions hold (R189). -/
def engineResetComplete (s : State) : State :=
  if s.resetting && resetMayComplete s then settle (completeReset s) else s

/-- ENGINE_RESET_COMPLETE (R189). -/
def execEngineResetComplete (s : State) : Host.Outcome State Fault Refusal := .next (engineResetComplete s)

end Sys2Proof.Machine
end

