-- ==== Sys2Proof/Machine/Takings.lean ====
section
/-! DEFINITION. The commands that Clip Control takes, from a directive or an event line: ROLL, CUT, MARK,
TOGGLE and the blink timer's expiry (chapter 6), and the two commands of the event lines' inputs
(chapter 8). -/

namespace Sys2Proof.Machine

/-! ## Opening a clip -/

/-- The first frame of a clip that opens now, for a directive or a line alike (R98). -/
def rollFrame (s : State) : Frame :=
  if s.prerollOn then
    let first := match firstHeld (s.entries .master) with
      | some e => e.frame
      | none => s.queue.intakeMarks.master.getD s.clips.rollFloor
    raiseTo s.queue.agingLine (raiseTo s.clips.rollFloor first)
  else s.intake.counter

/-- The clip number after `n` (R95). -/
def numberAfter (n : Nat) : Nat := if n < 65535 then n + 1 else 1

/-- The next clip number from `n` on that is not among `held`; `fuel` bounds the numbers passed (R95). -/
def skipHeld (held : List Nat) : Nat → Nat → Nat
  | 0, n => n
  | fuel + 1, n => if held.contains n then skipHeld held fuel (numberAfter n) else n

/-- The record of a clip that opens with first frame `first` (R99). -/
def newClip (first : Frame) (s : State) : Clip where
  number := s.clips.nextNumber
  first := first
  closing := none
  start := none
  marks := []
  lostMarks := 0
  reach := ⟨first, first⟩
  counts := ⟨⟨0, 0, 0, 0, 0, 0⟩, ⟨0, 0, 0, 0, 0, 0⟩⟩
  overrunMark := s.governor.overruns
  repeatMark := s.governor.repeats
  queued := ⟨false, false⟩
  written := ⟨false, false⟩

/-- A clip takes the lowest free record, and the next clip number advances past the numbers in the table
(R95, R99). -/
def placeClip (record : Nat) (c : Clip) (s : State) : State :=
  let table := changeAt (fun _ => some c) record s.clips.table
  { s with clips := { s.clips with
      table := table
      nextNumber := skipHeld ((table.filterMap id).map Clip.number) table.length (numberAfter c.number) } }

/-- A held entry committed to a clip from frame `first` on, cut at it where it covers frames on both sides;
one that lies wholly below goes (R87). -/
def commitEntry (r : Rate) (number : Nat) (first : Frame) (e : Entry) : Option Entry :=
  if e.isHeld then (agedEntry r first e).map fun kept => { kept with clip := some number, preroll := true }
  else some e

/-- The entries of a stream that belong to a clip are reported to Clip Control, in queue order (R87). -/
def reportCommitted (number : Nat) (st : Stream) (s : State) : State :=
  ((s.entries st).filter fun e => e.clip == some number).foldl (fun t e => reportPiece number st e t) s

/-- The Queue Manager commits from frame `first` to a clip (R87). The master queue's entries are reported before
the proxy queue's (R104; log entry 39). -/
def commitFrom (number : Nat) (first : Frame) (s : State) : State :=
  let left := fun st => (s.entries st).filterMap (commitEntry s.rate number first)
  let committed := putQueue .proxy (left .proxy) (putQueue .master (left .master) s)
  let lined := setAging (raiseTo first s.queue.agingLine) committed
  reportCommitted number .proxy (reportCommitted number .master lined)

/-- The held marks at or above `first` move to a clip's mark list, and the held-mark list is empty (R99). -/
def moveMarks (number : Nat) (first : Frame) (s : State) : State :=
  let moved := s.clips.held.filter fun m => !isBelow m.frame first
  let given := changeClip number (fun c => { c with marks := c.marks ++ moved }) s
  { given with clips := { given.clips with held := [] } }

/-- A clip opens in a record with first frame `first` (R99). -/
def openClip (record : Nat) (first : Frame) (s : State) : State :=
  let c := newClip first s
  let placed := commitFrom c.number first (placeClip record c s)
  lampOn (clipEvent .opened c.number (moveMarks c.number first placed))

/-! ## ROLL -/

/-- What becomes of a ROLL when Clip Control takes it (R97). -/
inductive RollCase where
  | recording (number : Nat)
  | notRunning
  | tableFull
  | opens (record : Nat)
  deriving DecidableEq, Repr

/-- The case of R97 that applies. -/
def rollCase (s : State) : RollCase :=
  match s.recording with
  | some c => .recording c.number
  | none =>
    if s.intake.state ≠ .running then .notRunning
    else match firstIndex Option.isNone s.clips.table with
      | none => .tableFull
      | some record => .opens record

/-- A directive ROLL taken (R97 to R99, R175). -/
def rollDirective (s : State) : State :=
  match rollCase s with
  | .recording number => complete .already number s
  | .notRunning => complete .notRunning 0 s
  | .tableFull => complete .tableFull 0 s
  | .opens record => complete .done s.clips.nextNumber (openClip record (rollFrame s) s)

/-- A line's ROLL taken (R97). -/
def rollLine (s : State) : State :=
  match rollCase s with
  | .recording _ => s
  | .notRunning | .tableFull => clipEvent .rollRefused 0 s
  | .opens record => openClip record (rollFrame s) s

/-- A ROLL taken from its source, if one is in flight there (R100). -/
def takeRoll (source : Source) (s : State) : State :=
  match source with
  | .directive => if s.flight = some .roll then settle (rollDirective s) else s
  | .line n =>
    if firstRequest n s.lines.requests = some .roll then settle (rollLine (dropRequest n s)) else s

/-- ROLL (R97). -/
def execRoll (source : Source) (s : State) : Host.Outcome State Fault Refusal := .next (takeRoll source s)

/-! ## CUT -/

/-- A clip's F has started: the most recent start is not none and lies at or above it (R101). -/
def hasStarted (s : State) (c : Clip) : Bool :=
  match s.clips.recentStart with
  | none => false
  | some x => !isBelow x c.first

/-- The recording clip closes with the most recent start as L (R101). -/
def closeClip (c : Clip) (last : Frame) (s : State) : State :=
  let closed := changeClip c.number (fun d => { d with closing := some ⟨last, .cutStopped⟩ }) s
  testTrailers c.number (lampOut (clipEvent .closed c.number (raiseFloor (last + 1) closed)))

/-- The recording clip, whose F has not started, is cancelled (R102). -/
def cancelClip (c : Clip) (s : State) : State := lampOut (clipEvent .cancelled c.number (freeClip c.number s))

/-- A CUT ends the recording clip (R101, R102). -/
def cutClip (c : Clip) (s : State) : State :=
  if hasStarted s c then closeClip c (s.clips.recentStart.getD 0) s else cancelClip c s

/-- A directive CUT taken (R101, R102, R175). -/
def cutDirective (s : State) : State :=
  match s.recording with
  | none => complete .already 0 s
  | some c => complete (if hasStarted s c then .done else .cancelled) c.number (cutClip c s)

/-- A line's CUT taken (R101). -/
def cutLine (s : State) : State :=
  match s.recording with
  | none => s
  | some c => cutClip c s

/-- A CUT taken from its source, if one is in flight there (R100). -/
def takeCut (source : Source) (s : State) : State :=
  match source with
  | .directive => if s.flight = some .cut then settle (cutDirective s) else s
  | .line n =>
    if firstRequest n s.lines.requests = some .cut then settle (cutLine (dropRequest n s)) else s

/-- CUT (R101). -/
def execCut (source : Source) (s : State) : Host.Outcome State Fault Refusal := .next (takeCut source s)

/-! ## TOGGLE -/

/-- A toggle of a line taken: a ROLL with no clip RECORDING, a CUT with one (R149). -/
def takeToggle (n : LineNo) (s : State) : State :=
  if firstRequest n s.lines.requests = some .toggle then
    let taken := dropRequest n s
    settle (if taken.recording.isSome then cutLine taken else rollLine taken)
  else s

/-- TOGGLE (R149). -/
def execToggle (n : LineNo) (s : State) : Host.Outcome State Fault Refusal := .next (takeToggle n s)

/-! ## MARK -/

/-- The outcome and detail of a MARK directive, by where its mark goes (R109). -/
def markOutcome : MarkPlace → Verdict × Nat
  | .clip number => (.done, number)
  | .held => (.done, 0)
  | .clipLost number => (.partly, number)
  | .heldLost => (.partly, 0)

/-- A MARK directive taken from its block (R109, R175). -/
def markDirective (b : Block) (s : State) : State :=
  match markKindOfCode (b.u8 32) with
  | none => complete .range 0 s
  | some kind =>
    let outcome := markOutcome (markPlace s)
    complete outcome.1 outcome.2 (takeMark kind .directive s)

/-- A mark taken from its source, if one is waiting there (R109, R151). -/
def takeMarkFrom (source : Source) (s : State) : State :=
  match source with
  | .directive =>
    match s.handedBlock .mark with
    | none => s
    | some b => settle (markDirective b s)
  | .line n =>
    match firstRequest n s.lines.requests with
    | some (.mark kind) => settle (takeMark kind source (dropRequest n s))
    | _ => s

/-- MARK (R109). -/
def execMark (source : Source) (s : State) : Host.Outcome State Fault Refusal := .next (takeMarkFrom source s)

/-! ## The blink timer -/

/-- The blink timer expires: the lamp is LIT again if a clip is RECORDING and the mode is AUTO (R114). With
no timer running there is nothing to expire (R115). -/
def blinkExpired (s : State) : State :=
  match s.clips.blinkTimer with
  | none => s
  | some _ =>
    { s with clips := { s.clips with
        blinkTimer := none
        lamp := if s.recording.isSome && s.clips.tallyMode == .auto then .lit else s.clips.lamp } }

/-- BLINK_TIMER_EXPIRY (R114). -/
def execBlinkTimerExpiry (s : State) : Host.Outcome State Fault Refusal := .next (blinkExpired s)

/-! ## The inputs of the event lines -/

/-- From `time` on, line `n` is driven to a level or by nothing (R147). -/
def rawChange (n : LineNo) (drive : Option Level) (time : Nat) (s : State) : State :=
  match s.line? n with
  | none => s
  | some l => settle (changeLine n time l (l.driven drive) s)

/-- RAW_LEVEL_CHANGE (R147). -/
def execRawLevelChange (n : LineNo) (drive : Option Level) (time : Nat) (s : State) :
    Host.Outcome State Fault Refusal := .next (rawChange n drive time s)

/-- The filter timer of line `n` expires at `time`, if it runs (R147). -/
def filterExpired (n : LineNo) (time : Nat) (s : State) : State :=
  match s.line? n with
  | none => s
  | some l => if l.timer.isSome then settle (changeLine n time l l.expired s) else s

/-- FILTER_TIMER_EXPIRY (R147). -/
def execFilterTimerExpiry (n : LineNo) (time : Nat) (s : State) : Host.Outcome State Fault Refusal :=
  .next (filterExpired n time s)

end Sys2Proof.Machine
end

