-- ==== Sys2Proof/Machine/Dispatch.lean ====
section
/-! DEFINITION. The dispatch of every command to its meaning. -/

namespace Sys2Proof.Machine

/-- The effect of a command on everything but the queue of commands that wait. -/
def exec (i : Instr) (s : State) : Host.Outcome State Fault Refusal :=
  match i with
  | .fullReset => Sys2Proof.Machine.execFullReset s
  | .frameStart time => Sys2Proof.Machine.execFrameStart time s
  | .line pixels check => Sys2Proof.Machine.execLine pixels check s
  | .frameEnd => Sys2Proof.Machine.execFrameEnd s
  | .attemptEnd payload => Sys2Proof.Machine.execAttemptEnd payload s
  | .activityTableInitEnd => Sys2Proof.Machine.execActivityTableInitEnd s
  | .lookCurveInitEnd => Sys2Proof.Machine.execLookCurveInitEnd s
  | .proxyCodingEnd payload => Sys2Proof.Machine.execProxyCodingEnd payload s
  | .entry value => Sys2Proof.Machine.execEntry value s
  | .headerFetchDone bytes => Sys2Proof.Machine.execHeaderFetchDone bytes s
  | .bodyFetchDone bytes => Sys2Proof.Machine.execBodyFetchDone bytes s
  | .setup => Sys2Proof.Machine.execSetup s
  | .tune => Sys2Proof.Machine.execTune s
  | .lines => Sys2Proof.Machine.execLines s
  | .loadTable => Sys2Proof.Machine.execLoadTable s
  | .grant => Sys2Proof.Machine.execGrant s
  | .relinquish => Sys2Proof.Machine.execRelinquish s
  | .startIntake => Sys2Proof.Machine.execStartIntake s
  | .stopIntake => Sys2Proof.Machine.execStopIntake s
  | .intakeDrained => Sys2Proof.Machine.execIntakeDrained s
  | .roll source => Sys2Proof.Machine.execRoll source s
  | .cut source => Sys2Proof.Machine.execCut source s
  | .mark source => Sys2Proof.Machine.execMark source s
  | .setTimecode => Sys2Proof.Machine.execSetTimecode s
  | .wait => Sys2Proof.Machine.execWait s
  | .tableSourceReadDone bytes => Sys2Proof.Machine.execTableSourceReadDone bytes s
  | .outcomeWriteDone => Sys2Proof.Machine.execOutcomeWriteDone s
  | .refusedSlotWriteDone => Sys2Proof.Machine.execRefusedSlotWriteDone s
  | .walkerReturnedCountDone => Sys2Proof.Machine.execWalkerReturnedCountDone s
  | .halt => Sys2Proof.Machine.execHalt s
  | .resume => Sys2Proof.Machine.execResume s
  | .stop => Sys2Proof.Machine.execStop s
  | .freeze level => Sys2Proof.Machine.execFreeze level s
  | .engineReset => Sys2Proof.Machine.execEngineReset s
  | .engineResetComplete => Sys2Proof.Machine.execEngineResetComplete s
  | .notice value => Sys2Proof.Machine.execNotice value s
  | .noticeMask value => Sys2Proof.Machine.execNoticeMask value s
  | .ignoredRegisterWrite offset value => Sys2Proof.Machine.execIgnoredRegisterWrite offset value s
  | .pageRewriteDone => Sys2Proof.Machine.execPageRewriteDone s
  | .writerBurstDone => Sys2Proof.Machine.execWriterBurstDone s
  | .gapTimerExpiry stream => Sys2Proof.Machine.execGapTimerExpiry stream s
  | .resultSlotBurstDone => Sys2Proof.Machine.execResultSlotBurstDone s
  | .resultCountBurstDone => Sys2Proof.Machine.execResultCountBurstDone s
  | .burstRetry => Sys2Proof.Machine.execBurstRetry s
  | .burstError => Sys2Proof.Machine.execBurstError s
  | .rawLevelChange n drive time => Sys2Proof.Machine.execRawLevelChange n drive time s
  | .filterTimerExpiry n time => Sys2Proof.Machine.execFilterTimerExpiry n time s
  | .toggle n => Sys2Proof.Machine.execToggle n s
  | .blinkTimerExpiry => Sys2Proof.Machine.execBlinkTimerExpiry s

end Sys2Proof.Machine
end

