-- ==== Sys2Proof/Layouts.lean ====
section
/-! DEFINITION. The byte layouts of sections 11.2 to 11.4 as the manual's tables give them: rows of offset,
size and value. The statements say with them what a burst carries. -/

namespace Sys2Proof

open Sys2Proof.Machine

/-- A row of a layout: its offset, its size in bytes and its value, which lies low byte first. -/
abbrev Row := Nat × Nat × Nat

/-- Byte `k` of a layout; a byte that no row covers is 0. -/
def rowByte (rows : List Row) (k : Nat) : Byte :=
  match rows.find? fun r => decide (r.1 ≤ k ∧ k < r.1 + r.2.1) with
  | some r => BitVec.ofNat 8 (r.2.2 / 256 ^ (k - r.1))
  | none => 0

/-- The first `n` bytes of a layout. -/
def layout (n : Nat) (rows : List Row) : List Byte := (List.range n).map (rowByte rows)

/-- A flag as a bit. -/
def flagBit (b : Bool) : Nat := if b then 1 else 0

/-- The code of a value: its place among the values in the order of their codes. -/
def codeIn {α : Type} [DecidableEq α] (values : List α) (v : α) : Nat := values.idxOf v

/-! ## Slot results and entries -/

/-- The result fields of a slot from its offset 12 on (section 11.2). -/
def resultRows (r : Result) : List Row :=
  [(0, 4, r.bytesUsed), (4, 4, r.first.toNat), (8, 2, r.clip), (10, 2, r.begun),
    (12, 1, 1 + codeIn [.full, .clipEnd, .relinquished, .busFault, .engineReset, .refusedForm,
      .refusedDuplicate, .refusedFull] r.reason),
    (13, 1, flagBit r.continued), (14, 1, 1)]

/-- The picture header of an entry (section 11.3, R192). -/
def headerRows (e : Entry) : List Row :=
  [(0, 4, 0x1D0C23F7), (4, 1, 1 + codeIn [.coded, .repeated, .gap, .trailer] e.kind),
    (5, 1, codeIn [.master, .proxy] e.stream),
    (6, 1, flagBit e.preroll + 2 * flagBit e.unlocked + 4 * flagBit e.oversize), (7, 1, e.step),
    (8, 4, e.frame.toNat), (12, 2, e.clip.getD 0), (14, 2, e.count), (16, 1, e.label.hours),
    (17, 1, e.label.minutes), (18, 1, e.label.seconds), (19, 1, e.label.frames), (20, 4, e.size - 32),
    (24, 1, e.attempt), (25, 1, flagBit e.label.drop), (26, 2, e.phase), (28, 4, 0)]

/-- Where a mark came from: 0 to 5 for the lines, 6 for the directive (section 11.3). -/
def sourceIn : Source → Nat
  | .line n => n.val
  | .directive => 6

/-- The payload of a trailer (section 11.3, R107). -/
def trailerRows (t : TrailerRecord) : List Row :=
  [(0, 4, t.last.toNat),
    (4, 1, 1 + codeIn [.cutStopped, .brokenMasterFull, .brokenProxyFull, .brokenIndexFull] t.reason),
    (5, 1, t.lostMarks), (6, 2, t.counts.oversize), (8, 4, t.counts.entries), (12, 4, t.counts.repeats),
    (16, 4, t.counts.gaps), (20, 4, t.counts.unlocked), (24, 4, t.overrunDelta), (28, 4, t.repeatDelta)]
  ++ (t.marks.mapIdx fun j m =>
    [(32 + 8 * j, 4, m.frame.toNat), (36 + 8 * j, 1, 1 + codeIn [.good, .flag] m.kind),
      (37 + 8 * j, 1, sourceIn m.source), (38 + 8 * j, 2, 0)]).flatten

/-- Byte `k` of an entry as its writer writes it: 32 bytes of header, then the coded bytes, which are free
values (log entry 1), or the trailer's payload. -/
def writtenByte (e : Entry) (k : Nat) : Byte :=
  if k < 32 then rowByte (headerRows e) k
  else match e.payload with
    | .none => 0
    | .coded tag => Config.codedByte tag (k - 32)
    | .trailer t => rowByte (trailerRows t) (k - 32)

/-! ## The status page -/

/-- A frame's age: its distance below the frame counter, held at 65,535; 0 for no frame (R193). -/
def ageIn (s : State) (x : Option Frame) : Nat := (x.map fun y => min (s.intake.counter - y).toNat 65535).getD 0

/-- A count as the page shows it (R193). -/
def shownAs (n : Nat) : Nat := min n 65535

/-- Offsets 0 to 35. -/
def intakeRows (s : State) : List Row :=
  [(0, 4, s.page.sequence.toNat), (4, 3, s.notices.pending.toNat),
    (7, 1, codeIn [.stopped, .running, .stopping] s.intake.state
      + 4 * ((s.master.picture.map MasterPicture.attempt).getD 0) + 16 * flagBit s.intake.geometry.isSome
      + 32 * flagBit (s.walker.state == .resetting) + 64 * flagBit s.notices.freeze),
    (8, 4, s.intake.counter.toNat), (12, 1, s.intake.timecode.hours), (13, 1, s.intake.timecode.minutes),
    (14, 1, s.intake.timecode.seconds), (15, 1, s.intake.timecode.frames),
    (16, 1, flagBit s.intake.timecode.drop + 2 * flagBit s.master.picture.isSome
      + 4 * flagBit s.proxy.picture.isSome + 8 * flagBit (s.master.tableState == .ready)
      + 16 * flagBit (s.proxy.curveState == .ready) + 32 * flagBit (s.proxy.filter == .long)
      + 64 * flagBit s.queue.queues.master.aboveMark + 128 * flagBit s.queue.queues.proxy.aboveMark),
    (17, 1, (s.slots.filter fun x => x.state == .free).length),
    (18, 1, (s.slots.filter fun x => x.state == .ready).length),
    (19, 1, s.inputs.master.length), (20, 1, s.inputs.proxy.length), (21, 1, s.master.settings.step),
    (22, 2, shownAs s.intake.lost), (24, 2, shownAs s.intake.malformed), (26, 2, s.master.settings.cap),
    (28, 1, (s.master.settings.offsets.getD 0 0 % 256).toNat),
    (29, 1, (s.master.settings.offsets.getD 1 0 % 256).toNat),
    (30, 1, (s.master.settings.offsets.getD 2 0 % 256).toNat),
    (31, 1, (s.master.settings.offsets.getD 3 0 % 256).toNat),
    (32, 2, ageIn s (s.master.picture.map fun p => p.item.frame)),
    (34, 2, ageIn s (s.proxy.picture.map fun p => p.item.frame))]

/-- Offsets 36 to 67; the two-bit code of a depth is 0 for 4, 1 for 8, 2 for 16 and 3 for 32. -/
def governorRows (s : State) : List Row :=
  let g := s.governor
  let depth := codeIn [4, 8, 16]
  [(36, 1, codeIn [.off, .degrade, .skip] g.inputs.mode + 4 * depth g.inputs.depth
      + 16 * depth (if g.inputs.depth = 32 ∧ g.inputs.mode ≠ .skip then 16 else g.inputs.depth)),
    (37, 1, g.inputs.threshold), (38, 2, g.inputs.rate),
    (40, 3, g.inputs.qmin + 2 ^ 6 * g.inputs.qmax + 2 ^ 12 * g.inputs.qstart + 2 ^ 18 * g.step),
    (43, 5, g.n), (48, 3, g.nominal), (51, 3, g.burst), (54, 3, g.skipAt), (57, 3, g.remainder),
    (60, 3, (g.credit % 16777216).toNat), (63, 1, s.queue.depth), (64, 2, shownAs g.overruns),
    (66, 2, shownAs g.repeats)]

/-- Offsets 68 to 99. -/
def queueRows (s : State) : List Row :=
  let m := s.entries .master
  let p := s.entries .proxy
  let held := fun entries : List Entry => ((entries.filter fun e => e.clip.isNone).map Entry.count).sum
  let taken := fun entries : List Entry => (entries.filter fun e => e.clip.isSome).length
  [(68, 5, (m.map Entry.size).sum), (73, 4, (p.map Entry.size).sum), (77, 2, m.length), (79, 2, p.length),
    (81, 2, taken m), (83, 2, taken p), (85, 2, shownAs (held m)), (87, 2, shownAs (held p)),
    (89, 2, ageIn s s.queue.intakeMarks.master), (91, 2, ageIn s s.queue.intakeMarks.proxy),
    (93, 2, ageIn s (some s.queue.agingLine)), (95, 2, ageIn s (some s.clips.rollFloor)),
    (97, 2, s.queue.limit), (99, 1, s.queue.highMark)]

/-- Offsets 100 to 111. The record numbers stand in age order, the oldest clip's in the lowest bits. -/
def clipFlagRows (s : State) : List Row :=
  [(100, 1, flagBit s.queue.intakeMarks.master.isSome + 2 * flagBit s.queue.intakeMarks.proxy.isSome
      + 4 * flagBit (s.writer .master).belowWatermark + 8 * flagBit (s.writer .proxy).belowWatermark
      + 16 * ((s.lines.sync.last.map fun c => 1 + codeIn [.hit, .miss] c.2).getD 0)
      + 64 * codeIn [.none, .locked, .lost] s.lines.sync.state),
    (101, 1, codeIn [.auto, .forceOn, .forceOff] s.clips.tallyMode
      + 4 * codeIn [.dark, .lit, .blink] s.clips.lamp + 16 * s.clips.held.length),
    (102, 2, s.clips.nextNumber), (104, 2, s.clips.blinkTime),
    (106, 1, (s.clips.lastEvent.map fun e =>
      1 + codeIn [.opened, .closed, .cancelled, .broken, .retired, .rollRefused] e.1).getD 0),
    (107, 1, (ageOrder 0 s.clips.table).foldr (fun c n => c.1 + 4 * n) 0),
    (108, 2, (s.clips.lastEvent.map Prod.snd).getD 0), (110, 2, shownAs s.clips.heldLost)]

/-- The 16 bytes of clip record `q`; a free record reads 0 (R193). -/
def recordRows (s : State) (q : Nat) : List Row :=
  let record := s.clips.table.getD q none
  let shows := fun f : Clip → Nat => (record.map f).getD 0
  [(112 + 16 * q, 2, shows Clip.number),
    (114 + 16 * q, 1, shows fun c => match c.closing with
      | none => 1
      | some closing => 2 + 4 * (1 + codeIn [.cutStopped, .brokenMasterFull, .brokenProxyFull,
          .brokenIndexFull] closing.reason)),
    (115 + 16 * q, 1, shows fun c => c.marks.length), (116 + 16 * q, 4, shows fun c => c.first.toNat),
    (120 + 16 * q, 4, shows fun c => (c.closing.map fun closing => closing.last.toNat).getD 0),
    (124 + 16 * q, 2, ageIn s (record.map fun c => c.reach.master)),
    (126 + 16 * q, 2, ageIn s (record.map fun c => c.reach.proxy))]

/-- Offsets 176 to 195: the held marks, oldest first, mark `j` in bits 4j to 4j + 3 of the last four bytes. -/
def markRows (s : State) : List Row :=
  ((List.range 8).map fun j => (176 + 2 * j, 2, ageIn s (s.clips.held[j]?.map Mark.frame)))
    ++ [(192, 4, s.clips.held.foldr
      (fun m n => 8 * codeIn [.good, .flag] m.kind + sourceIn m.source + 16 * n) 0)]

/-- Offsets 196 to 215 (the order of the four priority bits: log entry 32). -/
def writerRows (s : State) : List Row :=
  let m := s.writer .master
  let p := s.writer .proxy
  let high := s.arbiter.high
  let state := fun w : Writer => codeIn [.idle, .writing, .starved, .gap] w.state
  [(196, 1, state m + 4 * state p + 16 * flagBit m.current.isSome + 32 * flagBit p.current.isSome),
    (197, 1, m.segments.length), (198, 1, p.segments.length), (199, 1, s.writers.grants.length),
    (200, 3, (m.current.map Current.position).getD 0), (203, 3, (p.current.map Current.position).getD 0),
    (206, 2, shownAs m.spells), (208, 2, shownAs p.spells), (210, 1, s.writers.watermark),
    (211, 1, s.writers.retry + 16 * flagBit high.walker + 32 * flagBit high.page + 64 * flagBit high.master
      + 128 * flagBit high.proxy),
    (212, 2, s.writers.gapTime), (214, 2, shownAs s.arbiter.retries)]

/-- Offsets 216 to 227. -/
def lineRows (s : State) : List Row :=
  let sync := s.lines.sync
  let shows := fun l : Line => codeIn [.none, .rollToggle, .rollHold, .markGood, .markFlag, .syncRef] l.role
    + 8 * flagBit (l.filtered == .high) + 16 * flagBit l.timer.isSome
  ((List.range 6).map fun m => (216 + m, 1, shows (s.lines.lines.getD m (Line.reset none))))
    ++ [(222, 3, sync.lastPhase + 2 ^ 12 * (sync.last.map Prod.fst).getD 0), (225, 2, sync.tolerance),
      (227, 1, min sync.hitRun 15 + 16 * min sync.missRun 15)]

/-- Offsets 228 to 240. The kind of a block shows its low four bits where they hold it (log entry 2). -/
def walkerRows (s : State) : List Row :=
  let w := s.walker
  let kind := fun b : Block =>
    if (b.byteAt 0).toNat < 16 then (b.byteAt 0).toNat else (Config.wideKindNibble (b.byteAt 0)).toNat
  [(228, 1, codeIn [.idle, .walking, .waiting, .halted, .stopping, .resetting] w.state
      + 8 * flagBit w.pendingEntry.isSome + 16 * (w.block.map kind).getD 0),
    (229, 2, w.count), (231, 6, (w.block.map Block.address).getD 0), (237, 4, w.lastTag.toNat)]

/-- Offsets 241 to 255: the error log. -/
def faultRows (s : State) : List Row :=
  let shows := fun f : FaultReport → Nat => (s.notices.log.map f).getD 0
  [(241, 1, shows fun f => 1 + codeIn [.systemError, .retryLimit, .fetchFault, .writebackFault, .chainForm,
      .chainLoop, .frameLost, .frameMalformed, .queueFull, .resultWrite] f.kind),
    (242, 1, shows fun f => 1 + codeIn [.pictureIntake, .clipControl, .masterWriter, .proxyWriter,
        .pageWriter, .directiveWalker] f.source
      + 8 * (f.stream.map fun st => 1 + codeIn [.master, .proxy] st).getD 0),
    (243, 1, s.notices.later), (244, 6, shows fun f => f.address.getD 0),
    (250, 4, shows fun f => (f.frame.map BitVec.toNat).getD 0), (254, 2, 0)]

/-- The rows of the status page (section 11.4). -/
def pageRows (s : State) : List Row :=
  intakeRows s ++ governorRows s ++ queueRows s ++ clipFlagRows s
    ++ recordRows s 0 ++ recordRows s 1 ++ recordRows s 2 ++ recordRows s 3
    ++ markRows s ++ writerRows s ++ lineRows s ++ walkerRows s ++ faultRows s

/-- The 256 bytes of the status page formed from a state (R193). -/
def pageBytes (s : State) : List Byte := layout 256 (pageRows s)

end Sys2Proof
end

