-- ==== Sys2Proof/Safety.lean ====
section
/-! DEFINITION. The words of the statements: what counts as a safe run, the shape that every step keeps, and
what a command leaves as it was. -/

namespace Sys2Proof

open Sys2Proof.Machine

/-! ## Steps -/

/-- A step answers a next state. -/
def Safe (s : State) : Prop := ∃ t, step s = .next t

/-- A command carried out in a state answers a next state, of which `P` holds. -/
def Completes (c : Instr) (s : State) (P : State → Prop) : Prop := ∃ t, exec c s = .next t ∧ P t

/-! ## What every step keeps -/

/-- The sizes that the manual fixes, and the canonical form of shared memory: 16 slots (R7), 4 clip records
(R94), 6 event lines (chapter 8), rising addresses. -/
structure Shaped (s : State) : Prop where
  slots : s.slots.length = 16
  clips : s.clips.table.length = 4
  lines : s.lines.lines.length = 6
  memory : Memory.wf s.shared = true

/-- The two tables: 64 classes of 0 to 3 (section 2.7), and 33 points up to 4095 of which none is lower than
the one before (R48). -/
structure TablesSound (s : State) : Prop where
  activity : s.master.table.length = 64
  classes : ∀ c ∈ s.master.table, c ≤ 3
  curve : s.proxy.curve.length = 33
  points : ∀ p ∈ s.proxy.curve, p ≤ 4095
  rising : s.proxy.curve.Pairwise (· ≤ ·)

/-- What the walker's record says of a LOAD_TABLE under way: it has passed its checks, and while its source
is read, the burst of its next bytes is the walker's (R31, R32, R47). An engine reset has left the walker no
block (R172). -/
structure LoadSound (s : State) : Prop where
  reset : s.arbiter.resetBurst = true → s.walker.state = .resetting
  cleared : s.walker.state = .resetting → s.walker.block = none
  waiting : ∀ b, s.walker.block = some b → b.stage = .inFlight .loadTable →
    b.kind = some .loadTable ∧ loadFits b.loadFields = true
  reading : ∀ b got, s.walker.block = some b → b.stage = .reading got →
    loadFits b.loadFields = true ∧ got.length < b.loadFields.sourceLength
      ∧ ∃ u, s.arbiter.bursts.walker = some u ∧ u.kind = .table
        ∧ u.length = burstLength (b.loadFields.source + got.length)
            (b.loadFields.sourceLength - got.length)

/-- The Rate Governor: its inputs in their ranges (R51), its derived quantities as R53 and R54 compute them,
r below num, C from −B to B and Q from Qmin to Qmax (R55), and in OFF C at B and Q at Qstart (R60). -/
structure GovernorSound (s : State) : Prop where
  rate : 500 ≤ s.governor.inputs.rate ∧ s.governor.inputs.rate ≤ 40000
  depth : s.governor.inputs.depth ∈ [4, 8, 16, 32]
  threshold : 4 ≤ s.governor.inputs.threshold ∧ s.governor.inputs.threshold ≤ 64
  steps : 1 ≤ s.governor.inputs.qmin ∧ s.governor.inputs.qmin ≤ s.governor.inputs.qstart
    ∧ s.governor.inputs.qstart ≤ s.governor.inputs.qmax ∧ s.governor.inputs.qmax ≤ 63
  derived : ∀ g, s.intake.geometry = some g →
    s.governor.n = s.governor.inputs.rate * 125 * (rateOf g.code).den
      ∧ s.governor.nominal = s.governor.n / (rateOf g.code).num
      ∧ s.governor.burst = s.governor.nominal
          * (if s.governor.inputs.depth = 32 ∧ s.governor.inputs.mode ≠ .skip then 16
             else s.governor.inputs.depth)
      ∧ s.governor.skipAt = s.governor.nominal * s.governor.inputs.threshold / 16
      ∧ s.governor.remainder < (rateOf g.code).num
  absent : s.intake.geometry = none →
    s.governor.n = 0 ∧ s.governor.nominal = 0 ∧ s.governor.burst = 0 ∧ s.governor.skipAt = 0
      ∧ s.governor.credit = 0 ∧ s.governor.remainder = 0
  credit : -(s.governor.burst : Int) ≤ s.governor.credit ∧ s.governor.credit ≤ s.governor.burst
  step : s.governor.inputs.qmin ≤ s.governor.step ∧ s.governor.step ≤ s.governor.inputs.qmax
  off : s.governor.inputs.mode = .off →
    s.governor.credit = s.governor.burst ∧ s.governor.step = s.governor.inputs.qstart

/-- The held frames of the master queue are within the pre-roll limit (R81), which is that of the depth and
rate in force (R78), and every held entry covers 1 to 65,535 frames. -/
structure HeldSound (s : State) : Prop where
  limit : s.queue.limit = prerollLimit s.rate? s.queue.depth
  counts : ∀ e ∈ s.entries .master, e.isHeld = true → 1 ≤ e.count ∧ e.count ≤ 65535
  held : heldFrames (s.entries .master) ≤ s.queue.limit

/-- The clip table and the lamp: numbers from 1 to 65,535, each clip with one of its own, the next one held
by none (R94, R95); at most one clip RECORDING (R94); at most 32 marks in a clip and 8 held (R110, R111); the
lamp as the tally mode forces it, not DARK in AUTO while a clip is RECORDING, and BLINK while its timer runs
(R114, R115). -/
structure ClipsSound (s : State) : Prop where
  records : s.clips.table.length = 4
  numbers : ∀ c ∈ s.clipList, 1 ≤ c.number ∧ c.number ≤ 65535
  distinct : (s.clipList.map Clip.number).Nodup
  next : 1 ≤ s.clips.nextNumber ∧ s.clips.nextNumber ≤ 65535
    ∧ s.clips.nextNumber ∉ s.clipList.map Clip.number
  recording : (s.clipList.filter fun c => c.closing.isNone).length ≤ 1
  marks : ∀ c ∈ s.clipList, c.marks.length ≤ 32
  held : s.clips.held.length ≤ 8
  lamp : match s.clips.tallyMode with
    | .auto => s.recording ≠ none → s.clips.lamp ≠ .dark
    | .forceOn => s.clips.lamp = .lit
    | .forceOff => s.clips.lamp = .dark
  timer : s.clips.blinkTimer.isSome = true → s.clips.lamp = .blink

/-- The segments held stand in one place each, no list has more than 48 (R118, R120), and the result queue
holds at most two results of each stream: one of a segment its writer closed, and then the writer holds no
current segment, and one of an unused segment (R123, R130; log entry 33). -/
structure SegmentsSound (s : State) : Prop where
  once : s.heldStarts.Nodup
  lists : ∀ st, (s.writer st).segments.length ≤ 48
  own : ∀ st, (s.page.results.filter fun r => r.stream == st && r.own).length
    + (s.writer st).current.toList.length ≤ 1
  unused : ∀ st, (s.page.results.filter fun r => r.stream == st && !r.own).length ≤ 1

/-- The port: it carries the burst of the requester it is granted to, and it is free only while no burst
waits (R135). -/
structure PortSound (s : State) : Prop where
  granted : ∀ r, s.arbiter.port = some r → (s.arbiter.bursts.get r).isSome = true
  free : s.arbiter.port = none → ∀ r, s.arbiter.bursts.get r = none

/-! ## What stays as it was -/

/-- Picture Intake, the Slot Pool and the input lists are as they were. -/
structure KeepsIntake (s t : State) : Prop where
  intake : t.intake = s.intake
  slots : t.slots = s.slots
  inputs : t.inputs = s.inputs

/-- The coders and the Rate Governor are as they were. -/
structure KeepsCoders (s t : State) : Prop where
  master : t.master = s.master
  proxy : t.proxy = s.proxy
  governor : t.governor = s.governor
  freeTag : t.freeTag = s.freeTag

/-- The queues and Clip Control are as they were. -/
structure KeepsRecords (s t : State) : Prop where
  queue : t.queue = s.queue
  clips : t.clips = s.clips

/-- What the host has set up, and the waiting commands, are as they were: mask, FREEZE level, page address,
writer settings and priorities. -/
structure KeepsSettings (s t : State) : Prop where
  pending : t.pending = s.pending
  mask : t.notices.mask = s.notices.mask
  freeze : t.notices.freeze = s.notices.freeze
  address : t.page.address = s.page.address
  watermark : t.writers.watermark = s.writers.watermark
  gapTime : t.writers.gapTime = s.writers.gapTime
  retry : t.writers.retry = s.writers.retry
  high : t.arbiter.high = s.arbiter.high

/-- Every address of shared memory reads as it did. -/
def KeepsMemory (s t : State) : Prop := ∀ a, readByte t.shared a = readByte s.shared a

/-- Every address outside the `n` bytes from `a` upward reads as it did, and those bytes read `bytes`. -/
def Stores (a : Nat) (bytes : List Byte) (s t : State) : Prop :=
  (∀ k, k < bytes.length → readByte t.shared (a + k) = bytes[k]?) ∧
    ∀ x, x < a ∨ a + bytes.length ≤ x → readByte t.shared x = readByte s.shared x

/-- The error log is as it was. -/
structure KeepsLog (s t : State) : Prop where
  log : t.notices.log = s.notices.log
  later : t.notices.later = s.notices.later

/-- No notice is cleared, and only those listed may have been raised. -/
def RaisesOnly (allowed : List Notice) (s t : State) : Prop :=
  ∀ n, (s.isPending n = true → t.isPending n = true) ∧
    (t.isPending n = true → s.isPending n = true ∨ n ∈ allowed)

/-- The notices that may follow any event: a writer takes a segment or enters STARVED (R124, R125). -/
def followUps : List Notice := [.low .master, .low .proxy, .starved .master, .starved .proxy]

/-- What may follow an event at once: the writers take segments and request bursts, results are handed over,
the port is granted, a page rewrite begins, a directive that waits completes. All the rest is as it was. -/
structure FollowedBy (s t : State) : Prop where
  intake : KeepsIntake s t
  coders : KeepsCoders s t
  records : KeepsRecords s t
  lines : t.lines = s.lines
  settings : KeepsSettings s t
  shared : t.shared = s.shared
  log : KeepsLog s t
  grants : t.writers.grants = s.writers.grants
  retries : t.arbiter.retries = s.arbiter.retries
  raises : RaisesOnly followUps s t

/-- No RELINQUISH is in the hand of a writer. -/
abbrev NoRelinquish (s : State) : Prop := ∀ st, (s.writer st).relinquish = none

/-- Nothing is under way that an event at once takes further in the walker or gives back a segment: no
RELINQUISH is in hand (R132), no engine reset is in progress (R142), no WAIT for DRAINED is in flight
(R176). -/
abbrev Calm (s : State) : Prop :=
  (s.writer .master).relinquish = none ∧ (s.writer .proxy).relinquish = none
    ∧ s.walker.state ≠ .resetting ∧ s.flight ≠ some .drained

/-- What may become of a writer at once after an event: it takes the segment at the front of its list or
takes none (R123), a starvation spell may begin (R125), and its state and flags are worked out afresh. -/
structure WriterFollows (w v : Writer) : Prop where
  written : v.written = w.written
  gapCount : v.gapCount = w.gapCount
  gapTimer : v.gapTimer = w.gapTimer
  relinquish : v.relinquish = w.relinquish
  segment : (v.segments = w.segments ∧ v.current = w.current) ∨
    ∃ g rest, w.segments = g :: rest ∧ w.current = none ∧ v.segments = rest
      ∧ v.current = some ⟨g, 0, none, none, none, 0, w.written != 0⟩
  spells : v.spells = w.spells ∨ v.spells = min (w.spells + 1) countMax

/-- The front entry of a stream's queue is offered to its writer (R89): a trailer, or a committed entry of the
stream's current clip above whose frames the other stream's intake mark lies. -/
def offers (st : Stream) (s : State) : Bool :=
  (s.entries st).head?.any fun e =>
    e.kind == .trailer
      || (e.clip.isSome && e.clip == (s.currentClip st).map Clip.number
        && (s.queue.intakeMarks.get (otherStream st)).any fun m =>
          isBelow (e.frame + BitVec.ofNat 32 e.count - 1) m)

/-- The result of a segment that the stream's writer closed is awaited (R130). -/
def awaits (st : Stream) (s : State) : Bool := s.page.results.any fun r => r.stream == st && r.own

/-- What the writer of a stream does at once after an event, from `s` to `t`: it takes a segment exactly when
R123 lets it, the watermark notice and the starvation spell follow (R124, R125), its next burst is formed as
R126 gives with the bytes of section 11.3 (R192), and its state is that of R122's table. -/
structure WriterActs (st : Stream) (s t : State) : Prop where
  takes : offers st s = true → (s.writer st).current = none → awaits st s = false →
    ∀ g ∈ (s.writer st).segments.head?, (t.writer st).segments = (s.writer st).segments.tail
      ∧ (t.writer st).current = some ⟨g, 0, none, none, none, 0, (s.writer st).written != 0⟩
  keeps : offers st s = false ∨ (s.writer st).current ≠ none ∨ awaits st s = true ∨ (s.writer st).segments = [] →
    (t.writer st).segments = (s.writer st).segments ∧ (t.writer st).current = (s.writer st).current
  below : (t.writer st).belowWatermark =
    if (t.writer st).segments = (s.writer st).segments then (s.writer st).belowWatermark
    else decide (s.writers.watermark ≠ 0 ∧ (t.writer st).segments.length < s.writers.watermark)
  low : t.isPending (.low st)
    = (s.isPending (.low st) || ((t.writer st).belowWatermark && !(s.writer st).belowWatermark))
  state : (t.writer st).state =
    if (s.writer st).gapTimer ≠ none then .gap
    else if (t.arbiter.bursts.get (writerRequester st)).isSome = true ∨ awaits st s = true
        ∨ (offers st s = true ∧ (t.writer st).current ≠ none) then .writing
    else if offers st s = true ∧ (t.writer st).segments = [] then .starved
    else .idle
  spell : (t.writer st).spell = ((t.writer st).state == .starved
    || ((s.writer st).spell && (t.writer st).segments == (s.writer st).segments))
  spells : (t.writer st).spells =
    if (t.writer st).state = .starved ∧ (s.writer st).spell = false then min ((s.writer st).spells + 1) (2 ^ 32 - 1)
    else (s.writer st).spells
  starved : t.isPending (.starved st)
    = (s.isPending (.starved st) || ((t.writer st).state == .starved && !(s.writer st).spell))
  requests : ∀ e ∈ (s.entries st).head?, ∀ c ∈ (t.writer st).current,
    offers st s = true → (s.writer st).gapTimer = none → s.arbiter.bursts.get (writerRequester st) = none →
    let address := c.segment.start + c.position
    let length := min (min (e.size - (s.writer st).written) (c.segment.length - c.position))
      (4096 - address % 4096)
    t.arbiter.bursts.get (writerRequester st) = some ⟨.entry, address, length,
        (List.range length).map fun k => writtenByte e ((s.writer st).written + k)⟩
      ∧ t.arbiter.attempts.get (writerRequester st) = 0
  silent : offers st s = false ∨ (t.writer st).current = none ∨ (s.writer st).gapTimer ≠ none →
    t.arbiter.bursts.get (writerRequester st) = s.arbiter.bursts.get (writerRequester st)

/-- A rewrite is owed once the writers have acted: it was, or a notice of a writer has been raised with a page
address in force (R184). -/
def owes (s t : State) : Bool :=
  s.page.owed || (s.page.address.isSome && [Stream.master, .proxy].any fun st =>
    ((t.writer st).belowWatermark && !(s.writer st).belowWatermark)
      || ((t.writer st).state == .starved && !(s.writer st).spell))

/-- The oldest result, unless it waits for the walker's writes of the GRANT that brought its segment (R121,
R130). -/
def writable (s : State) : Option Result :=
  s.page.results.head?.filter fun r => !s.walker.block.any fun b => b.granted && b.address == r.segment.block

/-- What the Page Writer does at once after an event, from `s` to `t`. Free to request, it takes a rewrite or
a result, and where both wait the kind it did not make last (R187). A rewrite is owed and may begin unless
FREEZE holds it back, and it begins at its grant (R184 to R186): the owed flag is clear, the page sequence is
one higher, and the 256 bytes of R193 are formed from the state as it stands, to go to the page address. -/
structure PageActs (s t : State) : Prop where
  owed : t.page.owed = (owes s t && t.page.sequence == s.page.sequence)
  sequence : t.page.sequence = s.page.sequence ∨ t.page.sequence = s.page.sequence + 1
  begins : t.page.sequence ≠ s.page.sequence ↔
    s.arbiter.port = none ∧ t.arbiter.port = some .page
      ∧ t.arbiter.bursts.page.any (fun b => b.kind == .rewrite) = true
      ∧ (s.arbiter.bursts.page = none ∨ s.page.begun = false)
  begun : t.page.sequence ≠ s.page.sequence →
    t.arbiter.bursts.page = some ⟨.rewrite, s.page.address.getD 0, 256, pageBytes t⟩
      ∧ t.page.begun = true ∧ t.page.lastKind = .rewrite
  kept : s.arbiter.bursts.page ≠ none → t.arbiter.attempts.page = s.arbiter.attempts.page
    ∧ (t.page.sequence = s.page.sequence → t.arbiter.bursts.page = s.arbiter.bursts.page
      ∧ t.page.begun = s.page.begun ∧ t.page.lastKind = s.page.lastKind)
  rewrites : s.arbiter.bursts.page = none →
    owes s t = true → s.notices.freeze = false → s.page.address ≠ none →
    writable s = none ∨ s.page.lastKind = .result →
    t.arbiter.attempts.page = 0 ∧ (t.page.sequence = s.page.sequence →
      t.arbiter.bursts.page = some ⟨.rewrite, s.page.address.getD 0, 256, []⟩
        ∧ t.page.begun = false ∧ t.page.lastKind = s.page.lastKind)
  results : s.arbiter.bursts.page = none → ∀ r ∈ writable s,
    owes s t = false ∨ s.notices.freeze = true ∨ s.page.address = none ∨ s.page.lastKind = .rewrite →
    t.arbiter.bursts.page = some ⟨.resultSlot, r.segment.block + 64 + 32 * r.segment.slot + 12, 15,
        layout 15 (resultRows r)⟩
      ∧ t.arbiter.attempts.page = 0 ∧ t.page.lastKind = .result ∧ t.page.sequence = s.page.sequence
  rests : s.arbiter.bursts.page = none → writable s = none →
    owes s t = false ∨ s.notices.freeze = true ∨ s.page.address = none →
    t.arbiter.bursts.page = none ∧ t.page.lastKind = s.page.lastKind ∧ t.page.sequence = s.page.sequence

/-- How many places of the ring Walker, Page Writer, Master Writer, Proxy Writer lie between the round-robin
position and a requester, going on from the position (R135). -/
def turn (position r : Requester) : Nat :=
  (codeIn [.walker, .page, .master, .proxy] r + 3 - codeIn [.walker, .page, .master, .proxy] position) % 4

/-- What the arbiter does at once after an event, from `s` to `t` (R135): a port in use stays as it is; a free
one is granted to the HIGH requester, or with none of them waiting the LOW one, that comes first in the ring,
and the position becomes that requester. -/
structure PortActs (s t : State) : Prop where
  busy : s.arbiter.port ≠ none →
    t.arbiter.port = s.arbiter.port ∧ t.arbiter.position = s.arbiter.position
  idle : t.arbiter.port = none → t.arbiter.position = s.arbiter.position ∧ ∀ r, t.arbiter.bursts.get r = none
  grants : s.arbiter.port = none → ∀ r ∈ t.arbiter.port,
    t.arbiter.position = r ∧ (t.arbiter.bursts.get r).isSome = true
      ∧ ∀ q, q ≠ r → (t.arbiter.bursts.get q).isSome = true →
        (s.arbiter.high.get r = true ∧ s.arbiter.high.get q = false)
          ∨ (s.arbiter.high.get r = s.arbiter.high.get q
            ∧ turn s.arbiter.position r < turn s.arbiter.position q)

/-- What follows an event at once where the state is calm, in the order of log entry 13: the writers take
segments and request bursts (`WriterActs`), a page rewrite or a result's burst is requested (`PageActs`), the free
port is granted (`PortActs`). All the rest, the walker's record and burst and the result queue among it, is as it was. -/
structure Follows (s t : State) : Prop extends FollowedBy s t where
  walker : t.walker = s.walker
  walkerBurst : t.arbiter.bursts.walker = s.arbiter.bursts.walker
  results : t.page.results = s.page.results
  writers : ∀ st, WriterFollows (s.writer st) (t.writer st)
  requested : ∀ r b, r ≠ .page → s.arbiter.bursts.get r = some b →
    t.arbiter.bursts.get r = some b ∧ t.arbiter.attempts.get r = s.arbiter.attempts.get r
  acts : ∀ st, WriterActs st s t
  page : PageActs s t
  port : PortActs s t
  resetBurst : t.arbiter.resetBurst = s.arbiter.resetBurst

/-! ## Words for what a command leaves -/

/-- `s` with the directive in hand answered (R163, R164): the walker is WALKING, or STOPPING still, the
block's outcome is fixed with the frame counter's value, and the burst that writes it, seven bytes from
block offset 16, waits with attempt count 0. -/
def answered (v : Verdict) (detail : Nat) (b : Block) (s : State) : State :=
  { s with
    walker := { s.walker with
      state := if s.walker.state = .stopping then .stopping else .walking
      block := some { b with stage := .outcome v.code detail s.intake.counter } }
    arbiter := { s.arbiter with
      bursts := { s.arbiter.bursts with walker := some ⟨.outcome, b.address + 16, 7,
        leBytes 4 s.intake.counter.toNat ++ leBytes 2 detail ++ leBytes 1 v.code⟩ }
      attempts := { s.arbiter.attempts with walker := 0 } } }

/-- `s` with the directive in hand in flight and the walker WAITING (R163). -/
def inFlight (f : Flight) (b : Block) (s : State) : State :=
  { s with walker := { s.walker with state := .waiting, block := some { b with stage := .inFlight f } } }

/-- `s` with a burst of the walker waiting at the arbiter, its attempt count 0, and its block at a stage. -/
def walkerAsks (burst : Burst) (stage : Stage) (b : Block) (s : State) : State :=
  { s with
    walker := { s.walker with block := some { b with stage := stage } }
    arbiter := { s.arbiter with
      bursts := { s.arbiter.bursts with walker := some burst }
      attempts := { s.arbiter.attempts with walker := 0 } } }

/-- `s` after the burst of requester `r` on the port has ended OK: the burst is gone, the port is free, and
its bytes, if it wrote any, stand in shared memory (R135, R138). -/
def portEnded (r : Requester) (b : Burst) (s : State) : State :=
  { s with
    shared := writeBytes s.shared b.address b.data
    arbiter := { s.arbiter with
      bursts := s.arbiter.bursts.set none r, port := none, resetBurst := false } }

/-- The burst `b` of requester `r` and of `kind` is on the port, and no engine reset has cleared the work it
belongs to. -/
abbrev OnPort (r : Requester) (kind : BurstKind) (b : Burst) (s : State) : Prop :=
  s.arbiter.port = some r ∧ s.arbiter.bursts.get r = some b ∧ b.kind = kind ∧ s.arbiter.resetBurst = false

/-- The command by which a burst of a kind ends OK; `bytes` is what a read burst brings. -/
def okAnswer (bytes : List Byte) : BurstKind → Instr
  | .header => .headerFetchDone bytes
  | .body => .bodyFetchDone bytes
  | .table => .tableSourceReadDone bytes
  | .outcome => .outcomeWriteDone
  | .refusedSlot => .refusedSlotWriteDone
  | .walkerCount => .walkerReturnedCountDone
  | .rewrite => .pageRewriteDone
  | .resultSlot => .resultSlotBurstDone
  | .resultCount => .resultCountBurstDone
  | .entry => .writerBurstDone

/-- The answer by which a burst fails (R138): RETRY, where `limit` says that it comes to the limit, or ERROR. -/
abbrev failing (limit : Bool) : Instr := if limit then .burstRetry else .burstError

/-- The kind of the fault with which a burst fails (R138). -/
abbrev failure (limit : Bool) : FaultKind := if limit then .retryLimit else .systemError

/-- Where the burst of requester `r` fails by RETRY, the answer brings its attempt count to 64 × n for an n that is
not 0 (R138). -/
abbrev Fails (limit : Bool) (r : Requester) (s : State) : Prop :=
  limit = true → s.writers.retry ≠ 0 ∧ 64 * s.writers.retry ≤ s.arbiter.attempts.get r + 1

/-- `s` after the burst of requester `r` on the port has failed, before the requester acts (R138): the burst is
gone and the port is free; a RETRY is counted, and after an ERROR the bytes of a write are unknown (log
entry 7). -/
def portFailed (limit : Bool) (r : Requester) (b : Burst) (s : State) : State :=
  { s with
    shared := if limit then s.shared else forgetBytes s.shared b.address b.data.length
    arbiter := { s.arbiter with
      bursts := s.arbiter.bursts.set none r, port := none, resetBurst := false
      retries := if limit then min (s.arbiter.retries + 1) (2 ^ 32 - 1) else s.arbiter.retries } }

/-- A directive of `kind` is in its owner's hand: the block `b` has been fetched whole and not yet taken. -/
abbrev InHand (kind : DirectiveKind) (b : Block) (s : State) : Prop :=
  s.walker.block = some b ∧ b.stage = .handed ∧ b.kind = some kind

/-- A directive in flight is `f`, and its block is `b`. -/
abbrev FliesAs (f : Flight) (b : Block) (s : State) : Prop :=
  s.walker.block = some b ∧ b.stage = .inFlight f

/-! ## Pictures -/

/-- The luma sample of the pixel in column `x` of line `y`. -/
def lumaAt (lines : List (List Pixel)) (x y : Nat) : Nat := ((lines.getD y []).getD x ⟨0, 0⟩).luma.toNat

/-- The chroma sample of the pixel in column `x` of line `y`. -/
def chromaAt (lines : List (List Pixel)) (x y : Nat) : Nat := ((lines.getD y []).getD x ⟨0, 0⟩).chroma.toNat

/-- R23: the activity index of the tile in a row and a column of tiles of a picture of `w` by `h` pixels: the
sum of the luma differences of neighbouring pixels over 16 times their number, limited to 63. -/
def activityOf (w h : Nat) (lines : List (List Pixel)) (row column : Nat) : Nat :=
  let width := min 128 (w - 128 * column)
  let height := min 64 (h - 64 * row)
  let differences := (List.range height).flatMap fun j => (List.range (width - 1)).map fun i =>
    ((lumaAt lines (128 * column + i) (64 * row + j) : Int)
      - lumaAt lines (128 * column + i + 1) (64 * row + j)).natAbs
  min (differences.sum / (16 * ((width - 1) * height))) 63

/-- R41 and R42: the proxy pixel in column `x` of line `y`: the means over its window, each
floor((sum + floor(n / 2)) / n), Cb for an even column and Cr for an odd one, the luma mapped by the curve. -/
def proxyPixelOf (g : Geometry) (filter : Filter) (curve : Option (List Nat)) (lines : List (List Pixel))
    (x y : Nat) : Pixel :=
  let extra := if filter = .short then 0 else 1
  let span := fun size k => (List.range size).filter fun i =>
    decide (g.factor * k ≤ i + extra ∧ i < g.factor * k + g.factor + extra)
  let mean := fun sample : Nat → Nat → Nat =>
    let values := (span g.height y).flatMap fun j => (span g.width x).map fun i => sample i j
    (values.sum + values.length / 2) / values.length
  let v := mean (lumaAt lines)
  let mapped := match curve with
    | none => v
    | some p => p.getD (v / 128) 0
      + ((p.getD (v / 128 + 1) 0 - p.getD (v / 128) 0) * (v - 128 * (v / 128)) + 64) / 128
  let pair := if x % 2 = 0 then 0 else 1
  ⟨BitVec.ofNat 12 mapped, BitVec.ofNat 12 (mean fun i j => chromaAt lines (2 * (i / 2) + pair) j)⟩

/-- R24: the tile step of a tile at a picture step. -/
def tileStepOf (source : Option (List Nat)) (offsets : List Int) (step index : Nat) : Nat :=
  match source with
  | none => step
  | some table => (min (max ((step : Int) + offsets.getD (table.getD index 0) 0) 1) 63).toNat

/-! ## Clips -/

/-- The first frame of a clip that opens now (R98): with pre-roll off the next frame to start; with it on the
oldest held master frame, or else the master intake mark, or else the roll floor, raised to the roll floor and
to the aging line. -/
def openingFrame (s : State) : Frame :=
  if 0 < s.queue.depth ∧ s.intake.geometry ≠ none then
    raiseTo s.queue.agingLine (raiseTo s.clips.rollFloor
      (match (s.entries .master).filter fun e => e.clip == none with
        | e :: _ => e.frame
        | [] => s.queue.intakeMarks.master.getD s.clips.rollFloor))
  else s.intake.counter

/-- The clip number after `n` (R95). -/
def numberNext (n : Nat) : Nat := if n < 65535 then n + 1 else 1

/-- A clip has opened in record `k` with the first frame of R98 (R87, R95, R99): held entries at or above that
frame are committed with PREROLL, cut where they cover both sides, and the rest are gone; the record counts
them and reaches past the last of them (R103), and its start timecode is the first one's label (R104; master
first, log entry 39); the held marks at or above that frame have moved into the clip; the next clip number is
the next that no clip holds; CLIP is raised and the lamp lit in AUTO. -/
structure Opens (k : Nat) (s t : State) : Prop where
  entries : ∀ st, t.entries st = (s.entries st).filterMap fun e =>
    if e.isHeld then
      (if e.allBelow (openingFrame s) then none
       else if isBelow e.frame (openingFrame s) then some (cutFront s.rate (openingFrame s) e)
       else some e).map fun kept => { kept with clip := some s.clips.nextNumber, preroll := true }
    else some e
  line : t.queue.agingLine = raiseTo (openingFrame s) s.queue.agingLine
  marks : t.queue.intakeMarks = s.queue.intakeMarks
  others : ∀ j, j ≠ k → t.clips.table[j]? = s.clips.table[j]?
  record : (t.clips.table[k]?.join.map fun c =>
      (c.number, c.first, c.closing, c.lostMarks, c.overrunMark, c.repeatMark, c.queued, c.written))
    = some (s.clips.nextNumber, openingFrame s, none, 0, s.governor.overruns, s.governor.repeats,
      ⟨false, false⟩, ⟨false, false⟩)
  moved : t.clips.table[k]?.join.map Clip.marks = some (s.clips.held.filter fun m =>
    !isBelow m.frame (openingFrame s) && !isBelow m.frame (raiseTo (openingFrame s) s.queue.agingLine))
  counts : ∀ st, t.clips.table[k]?.join.map (fun c => c.counts.get st) = some
    (let pieces := (t.entries st).filter (·.clip == some s.clips.nextNumber)
    { entries := min pieces.length (2 ^ 32 - 1)
      repeats := min (pieces.filter (·.kind == .repeated)).length (2 ^ 32 - 1)
      gaps := min ((pieces.filter (·.kind == .gap)).map Entry.count).sum (2 ^ 32 - 1)
      oversize := min (pieces.filter (·.oversize)).length 65535
      unlocked := min (pieces.filter (·.unlocked)).length (2 ^ 32 - 1)
      oversizePast := (pieces.filter (·.oversize)).length - 65535 })
  reach : ∀ st, t.clips.table[k]?.join.map (fun c => c.reach.get st) = some
    (match ((t.entries st).filter (·.clip == some s.clips.nextNumber)).getLast? with
      | none => openingFrame s
      | some e => e.frame + BitVec.ofNat 32 e.count)
  start : t.clips.table[k]?.join.map Clip.start = some
    (((t.entries .master ++ t.entries .proxy).filter (·.clip == some s.clips.nextNumber)).head?.map
      Entry.label)
  next : s.clips.table.length = 4 →
    t.clips.nextNumber ∉ t.clipList.map Clip.number
      ∧ ∃ j ∈ List.range 5, t.clips.nextNumber = numberNext^[j + 1] s.clips.nextNumber
        ∧ ∀ i ∈ List.range j, numberNext^[i + 1] s.clips.nextNumber ∈ t.clipList.map Clip.number
  clips : t.clips.held = [] ∧ t.clips.lastEvent = some (.opened, s.clips.nextNumber)
    ∧ t.clips.recentStart = s.clips.recentStart ∧ t.clips.rollFloor = s.clips.rollFloor
    ∧ t.clips.heldLost = s.clips.heldLost
    ∧ (s.clips.tallyMode = .auto → t.clips.lamp = .lit)
    ∧ (s.clips.tallyMode ≠ .auto → t.clips.lamp = s.clips.lamp)
  notices : t.isPending .clip = true
    ∧ RaisesOnly (.clip :: .high .master :: .high .proxy :: followUps) s t
  intake : KeepsIntake s t
  coders : KeepsCoders s t
  settings : KeepsSettings s t
  log : KeepsLog s t
  shared : t.shared = s.shared
  sync : t.lines.lines = s.lines.lines ∧ t.lines.sync = s.lines.sync

/-- A ROLL may be carried out in record `k`: no clip is RECORDING, intake is RUNNING, and `k` is the lowest
free record (R97). The next clip number is no clip's and no entry's (R95). -/
abbrev MayOpen (k : Nat) (s : State) : Prop :=
  s.recording = none ∧ s.intake.state = .running ∧ s.clips.table[k]? = some none
    ∧ (∀ r ∈ s.clips.table.take k, r ≠ none)
    ∧ s.clips.nextNumber ∉ s.clipList.map Clip.number
    ∧ ∀ st, ∀ e ∈ s.entries st, e.clip ≠ some s.clips.nextNumber

/-- `c` is the clip that is RECORDING, and no other clip of the table has its number (R94, R95). -/
abbrev Records (c : Clip) (s : State) : Prop :=
  c ∈ s.clipList ∧ c.closing = none
    ∧ ∀ d ∈ s.clipList, d.closing = none ∨ d.number = c.number → d = c

/-- `s` with the clip with the number of `c` changed to `c`. -/
def withClip (c : Clip) (s : State) : State :=
  { s with clips := { s.clips with
    table := s.clips.table.map fun r => r.map fun d => if d.number = c.number then c else d } }

/-! ## Joining a queue -/

/-- The area of a queue in bytes (section 5.1). -/
abbrev areaOf : Stream → Nat
  | .master => 6442450944
  | .proxy => 1073741824

/-- R71: the queue of a stream has a place, and the bytes, for a coder's entry of `size` bytes. -/
abbrev HasRoom (st : Stream) (size : Nat) (s : State) : Prop :=
  (s.entries st).length + 1 ≤ 8188 ∧ bytesInUse (s.entries st) + size + 1280 ≤ areaOf st

/-- `s` with a stream's queue holding `es`: its above-mark flag follows, and M_HIGH or P_HIGH is raised where
the flag goes from clear to set (R91). -/
def withEntries (st : Stream) (es : List Entry) (s : State) : State :=
  let above := decide (areaOf st * s.queue.highMark / 100 ≤ bytesInUse es)
  raiseIf (above && !(s.queue.queues.get st).aboveMark) (.high st)
    { s with queue := { s.queue with queues := s.queue.queues.set ⟨es, above⟩ st } }

/-- The record of a clip for which an entry has been placed (R103, R104): the label of the first is the start
timecode, the reach of its stream is the frame after it, and its stream's counts have it (`oversizePast`: log
entry 41). -/
def clipWith (e : Entry) (c : Clip) : Clip :=
  let n := c.counts.get e.stream
  let limit := 2 ^ 32 - 1
  { c with
    start := c.start.or (some e.label)
    reach := c.reach.set (e.frame + BitVec.ofNat 32 e.count) e.stream
    counts := c.counts.set
      { entries := min (n.entries + 1) limit
        repeats := if e.kind = .repeated then min (n.repeats + 1) limit else n.repeats
        gaps := if e.kind = .gap then min (n.gaps + e.count) limit else n.gaps
        oversize := if e.oversize then min (n.oversize + 1) 65535 else n.oversize
        unlocked := if e.unlocked then min (n.unlocked + 1) limit else n.unlocked
        oversizePast := if e.oversize ∧ 65535 ≤ n.oversize then n.oversizePast + 1 else n.oversizePast }
      e.stream }

/-- Frame `x` is the recording clip's (R74): `c` is RECORDING and begins at or below it, and every other clip
of the table ends below it. -/
abbrev TakesFrame (c : Clip) (x : Frame) (s : State) : Prop :=
  Records c s ∧ isBelow x c.first = false
    ∧ ∀ d ∈ s.clipList, d ≠ c → d.closing.any (fun k => isBelow k.last x) = true

/-- `s` after the recording clip's entries of one stream have joined their queue one after another: each is at the
tail with the clip's number, without PREROLL, and in the clip's record, and the above-mark flag is worked out
with each (R75, R91, R103). -/
def withJoined (st : Stream) : Clip → List Entry → State → State
  | _, [], s => s
  | c, e :: es, s =>
    let placed := { e with clip := some c.number, preroll := false }
    withJoined st (clipWith placed c) es
      (withEntries st (s.entries st ++ [placed]) (withClip (clipWith placed c) s))

/-- The GAP entry of a stream for `count` frames from `first` on (R21, R36). -/
def gapOf (st : Stream) (first : Frame) (count : Nat) (label : Label) : Entry :=
  ⟨.gap, st, first, count, label, none, 32, false, false, false, 0, 0, 0, .none⟩

/-- The trailer of a closed clip in a stream (R107). -/
def trailerOf (s : State) (c : Clip) (closing : Closing) (st : Stream) : Entry :=
  ⟨.trailer, st, c.first, c.marks.length, c.start.getD ⟨0, 0, 0, 0, false⟩, some c.number,
    64 + 8 * c.marks.length, false, false, false, 0, 0, 0,
    .trailer ⟨closing.last, closing.reason, c.lostMarks, c.counts.get st,
      (((s.governor.overruns : Int) - c.overrunMark) % 2 ^ 32).toNat,
      (((s.governor.repeats : Int) - c.repeatMark) % 2 ^ 32).toNat, c.marks⟩⟩

/-- A slot after a coder has released it (R8): one reference fewer, and FREE with none left. -/
def slotReleased (x : Slot) : Slot := if x.refs = 1 then ⟨.free, 0, []⟩ else { x with refs := x.refs - 1 }

/-- No above-mark flag is clear that the bytes in use have to set (R91). -/
abbrev MarksSound (s : State) : Prop :=
  ∀ st, areaOf st * s.queue.highMark / 100 ≤ bytesInUse (s.entries st) → (s.queue.queues.get st).aboveMark = true

/-- `s` with the held entries of both queues and the held marks discarded, the aging line at the next frame
to start, and the above-mark flags worked out again (R79, R91, R112). -/
def withoutHeld (s : State) : State :=
  let kept := fun st => (s.entries st).filter fun e => e.clip.isSome
  { s with
    queue := { s.queue with
      agingLine := s.intake.counter
      queues :=
        ⟨⟨kept .master, decide (6442450944 * s.queue.highMark / 100 ≤ bytesInUse (kept .master))⟩,
          ⟨kept .proxy, decide (1073741824 * s.queue.highMark / 100 ≤ bytesInUse (kept .proxy))⟩⟩ }
    clips := { s.clips with held := [] } }

end Sys2Proof
end

