-- ==== Sys2Proof/Certificates/Slice0/Obligations.lean ====
section
/-! DEFINITION. The statements for the provers. A statement's docstring names the rules of spec/ it follows.
`Follows` and `Calm` are explained in Sys2Proof/Safety.lean: `Follows` fixes what the writers, the Page Writer and
the arbiter do at once after an event (R122 to R126, R135, R184 to R187, R192, R193; log entry 13). -/

open Sys2Proof Sys2Proof.Machine

/-! ## The whole machine -/

/-- The queue of waiting commands is first in, first out, and an empty queue leaves the part as it is (the
model's own queue, log entry 5). -/
def Obligations.StepTakesFront : Prop :=
  (∀ (s : State) (c : Instr) (rest : List Instr),
      s.pending = c :: rest → step s = exec c { s with pending := rest })
    ∧ ∀ s : State, s.pending = [] → step s = .next s

/-- Every command completes in every state, and leaves the waiting commands as they are (00_scope.md). That a
command also completes in a state where its event is not under way, and with any operands, is the model's choice
(log entries 14, 8, 9 and 18), and so are the waiting commands (log entry 5). -/
def Obligations.EveryCommandCompletes : Prop :=
  ∀ (c : Instr) (s : State), ∃ t, exec c s = .next t ∧ t.pending = s.pending

/-- FULL_RESET puts every block at its reset values from any state; shared memory, the waiting commands and
the levels that drive the event lines stay, and each filtered level is the raw one (R2, R144; log entry 6).
That no request of a line waits is log entry 20's, and that a burst in progress goes too, the port free and shared
memory as it was, log entry 43's. The second part spells out the reset values that the manual
gives (R19, R34, R50, R51, R54, R70, R93, R117, R124, R143, R144, R158, R159, R180, R181, R187); the tables'
contents are those of log entry 21. -/
def Obligations.FullResetRestores : Prop :=
  (∀ s : State, ∃ t, exec .fullReset s = .next t
     ∧ t.intake = State.reset.intake ∧ t.slots = State.reset.slots ∧ t.inputs = State.reset.inputs
     ∧ t.master = State.reset.master ∧ t.proxy = State.reset.proxy ∧ t.governor = State.reset.governor
     ∧ t.queue = State.reset.queue ∧ t.clips = State.reset.clips ∧ t.writers = State.reset.writers
     ∧ t.arbiter = State.reset.arbiter ∧ t.walker = State.reset.walker
     ∧ t.notices = State.reset.notices ∧ t.page = State.reset.page
     ∧ t.lines.requests = [] ∧ t.lines.sync = State.reset.lines.sync
     ∧ t.lines.lines = s.lines.lines.map (fun l =>
         ⟨.none, .falling, .low, .high, .zero, l.drive, l.drive.getD .high, none⟩)
     ∧ t.shared = s.shared ∧ t.pending = s.pending ∧ t.freeTag = s.freeTag) ∧
  (let s := State.reset
   (s.intake.state = .stopped ∧ s.intake.geometry = none ∧ s.intake.arrival = none ∧ s.intake.counter = 0
       ∧ s.intake.timecode = ⟨0, 0, 0, 0, false⟩ ∧ s.intake.lost = 0 ∧ s.intake.malformed = 0)
     ∧ (s.slots = List.replicate 16 ⟨.free, 0, []⟩ ∧ s.inputs = ⟨[], []⟩)
     ∧ (s.master.picture = none ∧ s.master.settings = ⟨16, 0, [-2, 0, 2, 4]⟩
       ∧ s.master.tableState = .initialising)
     ∧ (s.proxy.picture = none ∧ s.proxy.filter = .short ∧ s.proxy.curveState = .initialising)
     ∧ (s.governor.inputs = ⟨.off, 10000, 8, 8, 4, 40, 20⟩ ∧ s.governor.n = 0 ∧ s.governor.nominal = 0
       ∧ s.governor.burst = 0 ∧ s.governor.skipAt = 0 ∧ s.governor.credit = 0 ∧ s.governor.remainder = 0
       ∧ s.governor.step = 20 ∧ s.governor.openPicture = false ∧ s.governor.overruns = 0
       ∧ s.governor.repeats = 0)
     ∧ (s.entries .master = [] ∧ s.entries .proxy = [] ∧ s.queue.intakeMarks = ⟨none, none⟩
       ∧ s.queue.agingLine = 0 ∧ s.queue.depth = 0 ∧ s.queue.limit = 0 ∧ s.queue.highMark = 80
       ∧ s.queue.queues.master.aboveMark = false ∧ s.queue.queues.proxy.aboveMark = false)
     ∧ (s.clips.table = [none, none, none, none] ∧ s.clips.nextNumber = 1 ∧ s.clips.recentStart = none
       ∧ s.clips.rollFloor = 0 ∧ s.clips.held = [] ∧ s.clips.heldLost = 0 ∧ s.clips.lastEvent = none
       ∧ s.clips.tallyMode = .auto ∧ s.clips.blinkTime = 100 ∧ s.clips.lamp = .dark
       ∧ s.clips.blinkTimer = none)
     ∧ (∀ st, (s.writer st).segments = [] ∧ (s.writer st).current = none ∧ (s.writer st).state = .idle
       ∧ (s.writer st).written = 0 ∧ (s.writer st).gapCount = 0 ∧ (s.writer st).gapTimer = none
       ∧ (s.writer st).belowWatermark = false ∧ (s.writer st).spell = false ∧ (s.writer st).spells = 0
       ∧ (s.writer st).relinquish = none)
     ∧ (s.writers.grants = [] ∧ s.writers.watermark = 0 ∧ s.writers.gapTime = 0 ∧ s.writers.retry = 4
       ∧ s.arbiter.high = ⟨false, false, true, false⟩ ∧ s.arbiter.position = .proxy
       ∧ s.arbiter.retries = 0 ∧ s.arbiter.bursts = ⟨none, none, none, none⟩
       ∧ s.arbiter.attempts = ⟨0, 0, 0, 0⟩ ∧ s.arbiter.port = none ∧ s.arbiter.resetBurst = false)
     ∧ (s.lines.sync.state = .none ∧ s.lines.sync.reference = none ∧ s.lines.sync.hitRun = 0
       ∧ s.lines.sync.missRun = 0 ∧ s.lines.sync.missing = 0 ∧ s.lines.sync.lastPhase = 0
       ∧ s.lines.sync.last = none ∧ s.lines.sync.tolerance = 128 ∧ s.lines.requests = [])
     ∧ (∀ l ∈ s.lines.lines, l.role = .none ∧ l.edge = .falling ∧ l.active = .low ∧ l.idle = .high
       ∧ l.filter = .zero)
     ∧ (s.walker.state = .idle ∧ s.walker.block = none ∧ s.walker.pendingEntry = none
       ∧ s.walker.lastRefusal = .none ∧ s.walker.haltRequest = false ∧ s.walker.count = 0
       ∧ s.walker.continuation = none ∧ s.walker.lastBlock = none ∧ s.walker.lastTag = 0)
     ∧ (s.notices.pending = 0 ∧ s.notices.mask = 0 ∧ s.notices.log = none ∧ s.notices.later = 0
       ∧ s.notices.freeze = false ∧ s.page.address = none ∧ s.page.sequence = 0 ∧ s.page.owed = false
       ∧ s.page.begun = false ∧ s.page.lastKind = .result ∧ s.page.results = []))

/-- The state after full reset meets every invariant below (the tables' contents: log entry 21). -/
def Obligations.ResetMeetsInvariants : Prop :=
  Shaped State.reset ∧ TablesSound State.reset ∧ LoadSound State.reset ∧ GovernorSound State.reset
    ∧ HeldSound State.reset ∧ ClipsSound State.reset ∧ SegmentsSound State.reset ∧ PortSound State.reset

/-- No step changes the number of slots, clip records and event lines, and shared memory keeps its form
(R7, R94). -/
def Obligations.StepKeepsShape : Prop :=
  ∀ s t : State, Shaped s → step s = .next t → Shaped t

/-- Every step keeps the two tables at their sizes, their classes from 0 to 3, and the look curve rising
(R31, R32, R46 to R48). -/
def Obligations.StepKeepsTables : Prop :=
  ∀ s t : State, TablesSound s → LoadSound s → step s = .next t → TablesSound t ∧ LoadSound t

/-- Every step keeps C within −B to B, Q within Qmin to Qmax, r below num, and the derived quantities as the
inputs and the rate in force give them (R51 to R70). -/
def Obligations.StepKeepsGovernor : Prop :=
  ∀ s t : State, GovernorSound s → step s = .next t → GovernorSound t

/-- The number of frames covered by held entries of the master queue never exceeds L_pre (R81). -/
def Obligations.StepKeepsHeld : Prop :=
  ∀ s t : State, HeldSound s → step s = .next t → HeldSound t

/-- Every step keeps the clip numbers distinct, at most one clip RECORDING, and at most 32 marks in a clip and 8
held (R94, R95, R110, R111). It keeps the lamp LIT in FORCE_ON and DARK in FORCE_OFF, not DARK in AUTO while a clip
is RECORDING, and in BLINK while the blink timer runs (R114, R115). That the lamp is DARK in AUTO with no clip
RECORDING, and that BLINK needs a timer, is not said. -/
def Obligations.StepKeepsClips : Prop :=
  ∀ s t : State, ClipsSound s → step s = .next t → ClipsSound t

/-- No step holds a segment twice or lists more than 48 for a stream (R118, R120), and the result queue holds at
most two results of each stream after every step (R130; the unused segment's is log entry 33's). -/
def Obligations.StepKeepsSegments : Prop :=
  ∀ s t : State, SegmentsSound s → step s = .next t → SegmentsSound t

/-- After every step the port is free only if no burst waits, and otherwise carries the burst of the
requester it is granted to (R135). -/
def Obligations.StepKeepsPort : Prop :=
  ∀ s t : State, PortSound s → step s = .next t → PortSound t

/-- A pending notice stays pending until FULL_RESET or a write of 1 to its bit. R181: a fault reported while FAULT
is not pending is captured with later-fault count 0, and one reported while it is pending is counted, up to 255; FAULT
is pending after both, and a page rewrite is owed where a page address is in force. While FAULT is pending the
captured fault is unchanged; of two faults reported together the first is captured and the other counted. The log
stands at offsets 241 to 253 of the page, is empty after full reset and is kept over engine reset. R182: a write to
NOTICE that clears FAULT empties the log and its count, and one that leaves FAULT pending leaves them as they are.
With the report first, the clear empties the log, and a page formed between the two shows the fault; with the clear
first, the fault is captured and FAULT is pending again. -/
def Obligations.NoticesStay : Prop :=
  (∀ (c : Instr) (s t : State), exec c s = .next t → c ≠ .fullReset →
    (∀ n : Notice, (∀ v, c = .notice v → v.getLsbD n.position = false) →
      s.isPending n = true → t.isPending n = true)
    ∧ ((∀ v, c = .notice v → v.getLsbD 14 = false) → s.isPending .fault = true →
      t.notices.log = s.notices.log)) ∧
  (∀ (s : State) (f g : FaultReport),
    let t := reportFault f s
    (t.isPending .fault = true ∧ (s.page.address ≠ none → t.page.owed = true)) ∧
    (s.isPending .fault = false → t.notices.log = some f ∧ t.notices.later = 0) ∧
    (s.isPending .fault = true →
      t.notices.log = s.notices.log ∧ t.notices.later = min (s.notices.later + 1) 255) ∧
    (s.isPending .fault = false → s.notices.log = none →
      (reportFault g t).notices.log = some f ∧ (reportFault g t).notices.later = 1) ∧
    (∀ r, t.notices.log = some r →
      (pageBytes t).drop 241 = leBytes 1 (codeIn [.systemError, .retryLimit, .fetchFault, .writebackFault,
          .chainForm, .chainLoop, .frameLost, .frameMalformed, .queueFull, .resultWrite] r.kind + 1)
        ++ leBytes 1 (codeIn [.pictureIntake, .clipControl, .masterWriter, .proxyWriter, .pageWriter,
          .directiveWalker] r.source + 1 + 8 * (match r.stream with
            | none => 0
            | some .master => 1
            | some .proxy => 2))
        ++ leBytes 1 t.notices.later ++ leBytes 6 (r.address.getD 0)
        ++ leBytes 4 ((r.frame.map BitVec.toNat).getD 0) ++ [0, 0]) ∧
    (∀ v : BitVec 32, v.getLsbD 14 = true →
      (∃ u, exec (.notice v) t = .next u ∧ u.isPending .fault = false
        ∧ u.notices.log = none ∧ u.notices.later = 0) ∧
      (s.isPending .fault = true →
        ∃ u, exec (.notice v) s = .next u ∧ u.notices.log = none ∧ u.notices.later = 0
          ∧ (reportFault f u).notices.log = some f ∧ (reportFault f u).notices.later = 0
          ∧ (reportFault f u).isPending .fault = true))) ∧
  (∀ (s : State) (v : BitVec 32), v.getLsbD 14 = false → ∃ u, exec (.notice v) s = .next u ∧ KeepsLog s u) ∧
  (∀ s : State, (∃ t, exec .fullReset s = .next t ∧ t.notices.log = none ∧ t.notices.later = 0)
    ∧ ∃ t, exec .engineReset s = .next t ∧ KeepsLog s t)

/-- A byte of shared memory changes only where the burst on the port writes: no command else touches it
(R126, R135; log entries 4 and 7). -/
def Obligations.MemoryOnlyByBursts : Prop :=
  ∀ (c : Instr) (s t : State) (a : Nat), exec c s = .next t → readByte t.shared a ≠ readByte s.shared a →
    ∃ r b, s.arbiter.port = some r ∧ s.arbiter.bursts.get r = some b
      ∧ b.address ≤ a ∧ a < b.address + b.data.length
      ∧ (c = .burstError ∧ readByte t.shared a = none
        ∨ c ≠ .burstError ∧ readByte t.shared a = b.data[a - b.address]?)

/-- What the host has set up changes only by the command that sets it, or by FULL_RESET: the geometry, filter
and page address by SETUP, the 25 fields of a TUNE by TUNE, the lines' settings by LINES, the mask by
NOTICE_MASK, FREEZE by FREEZE (R4, R29, R40, R51, R78, R91, R113, R136, R144, R153, R180, R183, R186). -/
def Obligations.SettingsOnlyByOwners : Prop :=
  ∀ (c : Instr) (s t : State), exec c s = .next t → c ≠ .fullReset →
    (c ≠ .setup → t.intake.geometry = s.intake.geometry ∧ t.proxy.filter = s.proxy.filter
      ∧ t.page.address = s.page.address)
    ∧ (c ≠ .tune → t.master.settings = s.master.settings ∧ t.governor.inputs = s.governor.inputs
      ∧ t.queue.depth = s.queue.depth ∧ t.queue.highMark = s.queue.highMark
      ∧ t.clips.tallyMode = s.clips.tallyMode ∧ t.clips.blinkTime = s.clips.blinkTime
      ∧ t.writers.watermark = s.writers.watermark ∧ t.writers.gapTime = s.writers.gapTime
      ∧ t.writers.retry = s.writers.retry ∧ t.arbiter.high = s.arbiter.high
      ∧ t.lines.sync.tolerance = s.lines.sync.tolerance)
    ∧ (c ≠ .lines → t.lines.lines.map (fun l => (l.role, l.edge, l.active, l.idle, l.filter))
      = s.lines.lines.map (fun l => (l.role, l.edge, l.active, l.idle, l.filter)))
    ∧ ((∀ v, c ≠ .noticeMask v) → t.notices.mask = s.notices.mask)
    ∧ ((∀ v, c ≠ .freeze v) → t.notices.freeze = s.notices.freeze)

/-! ## Picture Intake -/

/-- R9: a frame start in RUNNING takes the counter's number and the timecode counter's label, is stamped with
the sync state and the last phase, claims the lowest FREE slot, and is reported to Clip Control, the sync
capture and the Page Writer, which owes a rewrite (R184). A lost frame still in arrival only ends (R13). -/
def Obligations.FrameStartClaims : Prop :=
  ∀ (s : State) (time i : Nat) (x : Slot), Calm s →
    s.intake.state = .running → (∀ a, s.intake.arrival = some a → a.slot = none) →
    s.slots[i]? = some x → x.state = .free →
    (∀ y ∈ s.slots.take i, y.state ≠ .free) →
    (∀ l ∈ s.lines.lines, l.role ≠ .syncRef) → (∀ n, s.flight ≠ some (.frames n)) →
    ∃ t, exec (.frameStart time) s = .next t ∧
      Follows
        { s with
          intake := { s.intake with
            counter := s.intake.counter + 1
            timecode := nextLabel s.rate s.intake.timecode
            arrival := some ⟨s.intake.counter, s.intake.timecode, s.lines.sync.state == .lost,
              s.lines.sync.lastPhase, some i, 0, false⟩ }
          slots := s.slots.set i ⟨.filling, 0, []⟩
          clips := { s.clips with recentStart := some s.intake.counter }
          lines := { s.lines with sync := { s.lines.sync with reference := some time } }
          page := { s.page with owed := s.page.owed || s.page.address.isSome } } t

/-- R10: a frame start that finds no FREE slot is lost. The loss is counted, INTAKE raised and FRAME_LOST
reported; the gap grows a token that ends just before the frame or is a token of its own (R14); the number
and the label are used all the same. A lost frame still in arrival only ends. In the first part both coders are
CODING, and both lists keep the gap. In the second both are IDLE with empty lists, and each makes a GAP entry of
it at once (R21, R36), which joins its queue for the clip that takes the frame (R74, R75, R103), or is dropped
with no clip and pre-roll off (R77). The frame start and the notices owe the page a rewrite (R184). -/
def Obligations.FrameStartLost : Prop :=
  ∀ (s : State) (time : Nat), Calm s →
    s.intake.state = .running → (∀ a, s.intake.arrival = some a → a.slot = none) →
    (∀ x ∈ s.slots, x.state ≠ .free) →
    (∀ l ∈ s.lines.lines, l.role ≠ .syncRef) → (∀ n, s.flight ≠ some (.frames n)) →
    (s.master.picture.isSome = true → s.proxy.picture.isSome = true → ∃ t, exec (.frameStart time) s = .next t ∧
      (t.intake = { s.intake with
          counter := s.intake.counter + 1
          timecode := nextLabel s.rate s.intake.timecode
          lost := min (s.intake.lost + 1) (2 ^ 32 - 1)
          arrival := some ⟨s.intake.counter, s.intake.timecode, s.lines.sync.state == .lost,
            s.lines.sync.lastPhase, none, 0, false⟩ }) ∧
      (∀ st, t.inputs.get st = match (s.inputs.get st).getLast? with
        | some (.gap first n l) =>
          if frameAfter first n = s.intake.counter then
            (s.inputs.get st).dropLast ++ [.gap first (n + 1) l]
          else s.inputs.get st ++ [.gap s.intake.counter 1 s.intake.timecode]
        | _ => s.inputs.get st ++ [.gap s.intake.counter 1 s.intake.timecode]) ∧
      (t.isPending .intake = true ∧ t.isPending .fault = true ∧
        RaisesOnly (.intake :: .fault :: followUps) s t) ∧
      (s.isPending .fault = false →
        t.notices.log = some ⟨.frameLost, .pictureIntake, none, some s.intake.counter, none⟩) ∧
      t.slots = s.slots ∧ KeepsCoders s t ∧ t.queue = s.queue ∧
      t.clips = { s.clips with recentStart := some s.intake.counter } ∧
      t.lines = { s.lines with sync := { s.lines.sync with reference := some time } } ∧
      KeepsSettings s t ∧ t.shared = s.shared ∧ t.walker = s.walker ∧ t.writers.grants = s.writers.grants ∧
      t.page.results = s.page.results ∧ ∀ st, WriterFollows (s.writer st) (t.writer st)) ∧
    (s.master.picture = none → s.proxy.picture = none → s.inputs = ⟨[], []⟩ →
      let x := s.intake.counter
      let lost : State :=
        reportFault ⟨.frameLost, .pictureIntake, none, some x, none⟩ (raise .intake
          { s with
            intake := { s.intake with
              counter := x + 1
              timecode := nextLabel s.rate s.intake.timecode
              lost := min (s.intake.lost + 1) (2 ^ 32 - 1)
              arrival := some ⟨x, s.intake.timecode, s.lines.sync.state == .lost, s.lines.sync.lastPhase,
                none, 0, false⟩ }
            queue := { s.queue with intakeMarks := ⟨some (x + 1), some (x + 1)⟩ }
            clips := { s.clips with recentStart := some x }
            lines := { s.lines with sync := { s.lines.sync with reference := some time } }
            page := { s.page with owed := s.page.owed || s.page.address.isSome } })
      let gap := fun st => gapOf st x 1 s.intake.timecode
      (s.clipList = [] → s.queue.depth = 0 →
        ∃ t, exec (.frameStart time) s = .next t ∧ Follows lost t) ∧
      (∀ c, TakesFrame c x s → (∀ st, HasRoom st 32 s) →
        ∃ t, exec (.frameStart time) s = .next t ∧
          Follows (withJoined .proxy (clipWith { gap .master with clip := some c.number } c) [gap .proxy]
            (withJoined .master c [gap .master] lost)) t))

/-- R17: at every frame start in RUNNING the timecode counter advances by one frame. Counted in frames from
00:00:00:00, with the skipped labels left out where the drop-frame flag is set, the label goes up by one and
wraps after a day. -/
def Obligations.FrameStartCountsTimecode : Prop :=
  ∀ (s : State) (time : Nat) (g : Geometry), s.intake.state = .running → s.intake.geometry = some g →
    let r := rateOf g.code
    let skip := if s.intake.timecode.drop then r.skip else 0
    let count := fun l : Label =>
      ((l.hours * 60 + l.minutes) * 60 + l.seconds) * r.base + l.frames
        - skip * ((l.hours * 60 + l.minutes) - (l.hours * 60 + l.minutes) / 10)
    labelFits r s.intake.timecode = true → isSkipped r s.intake.timecode = false →
    ∃ t, exec (.frameStart time) s = .next t ∧ labelFits r t.intake.timecode = true
      ∧ isSkipped r t.intake.timecode = false ∧ t.intake.timecode.drop = s.intake.timecode.drop
      ∧ count t.intake.timecode = (count s.intake.timecode + 1) % (86400 * r.base - skip * 1296)

/-- R11 with R1: a line of a frame in arrival with a slot is counted, its first W pixels are written while
fewer than H lines have arrived, and it sets the bad flag if its check sum or its pixel count is wrong or H
lines have arrived already. Nothing else changes. A line of a lost frame, which has no slot, has no effect
(R10). R2: in STOPPED every arrival from the pixel link is discarded, and the counters do not advance; with no frame in arrival a line or a frame-end marker has no
effect. -/
def Obligations.LineTaken : Prop :=
  (∀ (s : State) (pixels : List Pixel) (check : BitVec 16) (a : Arrival) (i : Nat) (g : Geometry),
     s.intake.state ≠ .stopped → s.intake.arrival = some a → a.slot = some i →
     s.intake.geometry = some g →
     exec (.line pixels check) s = .next
       { s with
         intake := { s.intake with arrival := some { a with
           lines := a.lines + 1
           bad := a.bad
             || decide ((pixels.map fun p => p.luma.toNat + p.chroma.toNat).sum % 65536 ≠ check.toNat)
             || decide (pixels.length ≠ g.width) || decide (g.height ≤ a.lines) } }
         slots := s.slots.modify i fun x =>
           { x with lines := if a.lines < g.height then x.lines ++ [pixels.take g.width] else x.lines } }) ∧
  (∀ (s : State) (pixels : List Pixel) (check : BitVec 16) (a : Arrival),
     s.intake.arrival = some a → a.slot = none → exec (.line pixels check) s = .next s) ∧
  (∀ (s : State) (c : Instr),
     ((∃ time, c = .frameStart time) ∨ (∃ pixels check, c = .line pixels check) ∨ c = .frameEnd) →
     s.intake.state = .stopped ∨ (s.intake.arrival = none ∧ ∀ time, c ≠ .frameStart time) →
     exec c s = .next s)

/-- R12: a frame-end marker ends the frame in arrival. With the bad flag clear and exactly H lines its slot
is READY for both coders and its item is appended to both lists; otherwise the slot is FREE, the failure is
counted and reported, and the number is a gap. A lost frame only ends. Both coders are CODING. R13: a frame
start in RUNNING that finds a frame with a slot in arrival ends that frame as malformed first, even if all its
lines were good, and the new frame never finds the pool full. R2: in STOPPING a frame start starts no frame; it
ends the frame in arrival, malformed with a slot and without more if it was lost. -/
def Obligations.FrameEndEnds : Prop :=
  (∀ (s : State) (a : Arrival) (g : Geometry), Calm s →
     s.intake.state ≠ .stopped → s.intake.arrival = some a → s.intake.geometry = some g →
     s.master.picture.isSome = true → s.proxy.picture.isSome = true →
     (∀ i, a.slot = some i → a.bad = false → a.lines = g.height →
       ∃ t, exec .frameEnd s = .next t ∧
         Follows
           { s with
             intake := { s.intake with arrival := none }
             slots := s.slots.modify i fun x => { x with state := .ready, refs := 2 }
             inputs := ⟨s.inputs.master ++ [.slot ⟨i, a.frame, a.label, a.unlocked, a.phase⟩],
               s.inputs.proxy ++ [.slot ⟨i, a.frame, a.label, a.unlocked, a.phase⟩]⟩ } t) ∧
     (∀ i, a.slot = some i → a.bad = true ∨ a.lines ≠ g.height →
       ∃ t, exec .frameEnd s = .next t ∧
         Follows
           (reportFault ⟨.frameMalformed, .pictureIntake, none, some a.frame, none⟩ (raise .intake
             { s with
               intake := { s.intake with
                 arrival := none, malformed := min (s.intake.malformed + 1) (2 ^ 32 - 1) }
               slots := s.slots.modify i fun _ => ⟨.free, 0, []⟩
               inputs := ⟨recordGapIn a.frame a.label s.inputs.master,
                 recordGapIn a.frame a.label s.inputs.proxy⟩ })) t) ∧
     (a.slot = none → exec .frameEnd s = .next { s with intake := { s.intake with arrival := none } })) ∧
  (∀ (s : State) (time i : Nat) (a : Arrival),
     s.intake.state = .running → s.intake.arrival = some a → a.slot = some i → i < s.slots.length →
     ∃ t, exec (.frameStart time) s = .next t
       ∧ t.intake.malformed = min (s.intake.malformed + 1) (2 ^ 32 - 1) ∧ t.intake.lost = s.intake.lost
       ∧ t.isPending .intake = true ∧ t.isPending .fault = true
       ∧ t.intake.arrival.map (fun b => (b.frame, b.label, b.slot.isSome, b.lines, b.bad))
         = some (s.intake.counter, s.intake.timecode, true, 0, false)
       ∧ t.intake.counter = s.intake.counter + 1) ∧
  (∀ (s : State) (time : Nat), Calm s → s.intake.state = .stopping →
     (s.intake.arrival = none → ∃ t, exec (.frameStart time) s = .next t ∧ Follows s t) ∧
     (∀ a, s.intake.arrival = some a → a.slot = none →
       ∃ t, exec (.frameStart time) s = .next t
         ∧ Follows { s with intake := { s.intake with arrival := none } } t) ∧
     (∀ a i, s.intake.arrival = some a → a.slot = some i → s.master.picture.isSome = true →
       s.proxy.picture.isSome = true →
       ∃ t, exec (.frameStart time) s = .next t ∧
         Follows
           (reportFault ⟨.frameMalformed, .pictureIntake, none, some a.frame, none⟩ (raise .intake
             { s with
               intake := { s.intake with
                 arrival := none, malformed := min (s.intake.malformed + 1) (2 ^ 32 - 1) }
               slots := s.slots.modify i fun _ => ⟨.free, 0, []⟩
               inputs := ⟨recordGapIn a.frame a.label s.inputs.master,
                 recordGapIn a.frame a.label s.inputs.proxy⟩ })) t))

/-! ## The coders and the Rate Governor -/

/-- R25 and R26: an attempt that exceeds the cap is followed by one at min(Qm + 4, 63), and that by one at
min(Qm + 8, 63), where the step is a new one. The attempt ended is recorded with its step and coded size, and
the tile steps are worked out again from the same activity indices (R24). Each coding takes the next tag for its
bytes (log entry 1). -/
def Obligations.AttemptEndFurther : Prop :=
  ∀ (s : State) (p : MasterPicture) (n q : Nat), Calm s → s.master.picture = some p →
    1 ≤ n → n ≤ p.width * p.height * 3 → p.settings.cap ≠ 0 → p.settings.cap * 1024 < n + 32 →
    (p.attempt = 1 ∧ q = min (p.settings.step + 4) 63 ∨ p.attempt = 2 ∧ q = min (p.settings.step + 8) 63) →
    q ≠ p.step →
    ∃ t, exec (.attemptEnd n) s = .next t ∧
      Follows
        { s with
          freeTag := s.freeTag + 1
          master := { s.master with
            picture := some { p with
              attempt := p.attempt + 1
              step := q
              tileSteps := p.indices.map (tileStepOf p.source p.settings.offsets q)
              latest := some (p.step, n + 32, s.freeTag) } } } t

/-- R27 and R28: an attempt that does not exceed the cap, or after which none is made, completes the picture.
Its CODED entry is handed over, the slot released (the last release leaves it FREE, R8), and the coder is IDLE.
An entry of the recording clip's range that fits joins the queue for it and is counted (R74, R75, R103, R104,
R91); with no clip and pre-roll off it is dropped, the intake mark set all the same (R77). A gap token that
waits is then cut into GAP entries of at most 65,535 frames, each with the label of its first frame, which join
after it (R21). The entry's bytes are those of the coding's tag (log entry 1). -/
def Obligations.AttemptEndCompletes : Prop :=
  ∀ (s : State) (p : MasterPicture) (n : Nat) (x : Slot), Calm s → s.master.picture = some p →
    1 ≤ n → n ≤ p.width * p.height * 3 →
    s.slots[p.item.slot]? = some x → x.state = .ready → 1 ≤ x.refs →
    let exceeds := p.settings.cap ≠ 0 ∧ p.settings.cap * 1024 < n + 32;
    (exceeds → p.attempt = 3 ∨ p.attempt = 1 ∧ p.step = min (p.settings.step + 4) 63
      ∨ p.attempt = 2 ∧ p.step = min (p.settings.step + 8) 63) →
    let e : Entry := ⟨.coded, .master, p.item.frame, 1, p.item.label, none, n + 32, false, p.item.unlocked,
      decide exceeds, p.step, p.attempt, p.item.phase, .coded s.freeTag⟩
    let done : State :=
      { s with
        freeTag := s.freeTag + 1
        master := { s.master with picture := none }
        slots := s.slots.set p.item.slot (slotReleased x)
        queue := { s.queue with intakeMarks := ⟨some (p.item.frame + 1), s.queue.intakeMarks.proxy⟩ } }
    (s.inputs.master = [] → s.clipList = [] → s.queue.depth = 0 →
      ∃ t, exec (.attemptEnd n) s = .next t ∧ Follows done t) ∧
    (∀ c, s.inputs.master = [] → TakesFrame c p.item.frame s → HasRoom .master (n + 32) s →
      let above := decide
        (6442450944 * s.queue.highMark / 100 ≤ bytesInUse (s.entries .master) + (n + 32))
      let counts : Counts :=
        { entries := min (c.counts.master.entries + 1) (2 ^ 32 - 1)
          repeats := c.counts.master.repeats
          gaps := c.counts.master.gaps
          oversize := if exceeds then min (c.counts.master.oversize + 1) 65535 else c.counts.master.oversize
          unlocked := if p.item.unlocked then min (c.counts.master.unlocked + 1) (2 ^ 32 - 1)
            else c.counts.master.unlocked
          oversizePast := if exceeds ∧ 65535 ≤ c.counts.master.oversize then c.counts.master.oversizePast + 1
            else c.counts.master.oversizePast }
      ∃ t, exec (.attemptEnd n) s = .next t ∧
        Follows
          (raiseIf (above && !s.queue.queues.master.aboveMark) (.high .master)
            (withClip
              { c with
                start := c.start.or (some p.item.label)
                reach := ⟨p.item.frame + 1, c.reach.proxy⟩
                counts := ⟨counts, c.counts.proxy⟩ }
              { done with queue := { done.queue with queues :=
                ⟨⟨s.entries .master ++ [{ e with clip := some c.number }], above⟩, s.queue.queues.proxy⟩ } })) t) ∧
    (∀ c (first : Frame) (frames : Nat) (label : Label), s.inputs.master = [.gap first frames label] →
      1 ≤ frames → TakesFrame c p.item.frame s → (∀ i, i < frames → TakesFrame c (first + BitVec.ofNat 32 i) s) →
      let pieces := (List.range ((frames + 65534) / 65535)).map fun i =>
        gapOf .master (first + BitVec.ofNat 32 (65535 * i)) (min (frames - 65535 * i) 65535)
          (labelAfter s.rate (65535 * i) label)
      (s.entries .master).length + 1 + pieces.length ≤ 8188 →
      bytesInUse (s.entries .master) + (n + 32) + 32 * pieces.length + 1280 ≤ 6442450944 →
      ∃ t, exec (.attemptEnd n) s = .next t ∧
        Follows
          (withJoined .master c (e :: pieces)
            { done with
              inputs := { s.inputs with master := [] }
              queue := { done.queue with intakeMarks :=
                ⟨some (first + BitVec.ofNat 32 frames), s.queue.intakeMarks.proxy⟩ } }) t)

/-- R74, R76 and R77: with pre-roll on and every clip of the table closed below it, a master picture at or above
the aging line joins its queue as a held entry where there is room and L_pre allows one frame more (after a break
of its clip too: log entry 42), and one below the line is dropped; the intake mark is set in both cases. R83: where its queue's room comes with the
oldest held frame, that one is aged out first, in both queues, with the held marks below the new aging line
(R80). R84: with no held entry and no room it is dropped, the aging line going past it. The master list is
empty. The entry's bytes are those of the coding's tag (log entry 1). -/
def Obligations.HeldEntryJoins : Prop :=
  ∀ (s : State) (p : MasterPicture) (n : Nat) (x : Slot), Calm s → s.master.picture = some p →
    1 ≤ n → n ≤ p.width * p.height * 3 → p.settings.cap = 0 → s.inputs.master = [] →
    s.slots[p.item.slot]? = some x → x.state = .ready → 1 ≤ x.refs →
    (∀ d ∈ s.clipList, d.closing.any (fun k => isBelow k.last p.item.frame) = true) → 0 < s.queue.depth → s.intake.geometry ≠ none →
    let e : Entry := ⟨.coded, .master, p.item.frame, 1, p.item.label, none, n + 32, false, p.item.unlocked,
      false, p.step, p.attempt, p.item.phase, .coded s.freeTag⟩
    let done : State :=
      { s with
        freeTag := s.freeTag + 1
        master := { s.master with picture := none }
        slots := s.slots.set p.item.slot (slotReleased x)
        queue := { s.queue with intakeMarks := ⟨some (p.item.frame + 1), s.queue.intakeMarks.proxy⟩ } }
    (isBelow p.item.frame s.queue.agingLine = true →
      ∃ t, exec (.attemptEnd n) s = .next t ∧ Follows done t) ∧
    (isBelow p.item.frame s.queue.agingLine = false → HasRoom .master (n + 32) s →
      heldFrames (s.entries .master) < s.queue.limit →
      let above := decide
        (6442450944 * s.queue.highMark / 100 ≤ bytesInUse (s.entries .master) + (n + 32))
      ∃ t, exec (.attemptEnd n) s = .next t ∧
        Follows
          (raiseIf (above && !s.queue.queues.master.aboveMark) (.high .master)
            { done with queue := { done.queue with queues :=
              ⟨⟨s.entries .master ++ [e], above⟩, s.queue.queues.proxy⟩ } }) t) ∧
    (∀ old rest, isBelow p.item.frame s.queue.agingLine = false → ¬ HasRoom .master (n + 32) s →
      s.entries .master = old :: rest → old.clip = none → old.count = 1 →
      isBelow old.frame p.item.frame = true → (∀ y ∈ s.entries .proxy, y.clip ≠ none) →
      (∀ y ∈ rest, y.clip = none → y.count = 1 ∧ isBelow y.frame (old.frame + 1) = false) →
      rest.length + 1 ≤ 8188 → bytesInUse rest + (n + 32) + 1280 ≤ 6442450944 →
      heldFrames rest < s.queue.limit →
      ∃ t, exec (.attemptEnd n) s = .next t ∧
        Follows
          (withEntries .master (rest ++ [e]) (withEntries .proxy (s.entries .proxy) (withEntries .master rest
            { done with
              queue := { done.queue with agingLine := old.frame + 1 }
              clips := { s.clips with
                held := s.clips.held.filter fun m => !isBelow m.frame (old.frame + 1) } }))) t) ∧
    (isBelow p.item.frame s.queue.agingLine = false → ¬ HasRoom .master (n + 32) s →
      (∀ st, ∀ y ∈ s.entries st, y.clip ≠ none) →
      ∃ t, exec (.attemptEnd n) s = .next t ∧
        Follows
          (withEntries .proxy (s.entries .proxy) (withEntries .master (s.entries .master)
            { done with
              queue := { done.queue with agingLine := p.item.frame + 1 }
              clips := { s.clips with
                held := s.clips.held.filter fun m => !isBelow m.frame (p.item.frame + 1) } })) t)

/-- R82, R86 and R105: a committed master picture for which its queue has no place or no bytes, and no held
entry to age out, breaks its clip: L is the frame before it, the reason says which room was short, QUEUE_FULL
is reported, the last clip event is BROKEN, CLIP is raised, the roll floor and the aging line move, and in
AUTO the lamp goes dark. In the first part every entry of the queues lies below the break, and stays. In the
second the proxy queue has gone further: its entries at or above the break are removed and a GAP entry over it
is cut, the clip's counts lose what those added, its proxy reach and its marks are cut back (the marks count as
lost), the aging line goes past the newest frame removed, and both trailers are queued at once (R106, R107).
An OVERSIZE entry for which R103 added nothing takes nothing back (log entry 41). All entries are the clip's. -/
def Obligations.FullQueueBreaks : Prop :=
  (∀ (s : State) (p : MasterPicture) (n : Nat) (c : Clip), Calm s → s.master.picture = some p →
    1 ≤ n → n ≤ p.width * p.height * 3 → p.settings.cap = 0 → s.inputs.master = [] →
    s.clipList = [c] → c.closing = none → isBelow p.item.frame c.first = false →
    (∀ st, ∀ e ∈ s.entries st, e.clip ≠ none ∧ isBelow (frameAfter e.frame e.count - 1) p.item.frame = true) →
    isBelow c.reach.proxy p.item.frame = true →
    (8188 < (s.entries .master).length + 1 ∨
      6442450944 < bytesInUse (s.entries .master) + (n + 32) + 1280) →
    let x := p.item.frame
    ∃ t, exec (.attemptEnd n) s = .next t
      ∧ (t.clipNumbered c.number).map Clip.closing = some (some ⟨x - 1,
          if 8188 < (s.entries .master).length + 1 then .brokenIndexFull else .brokenMasterFull⟩)
      ∧ t.clips.lastEvent = some (.broken, c.number) ∧ t.isPending .clip = true
      ∧ t.isPending .fault = true
      ∧ (s.isPending .fault = false →
        t.notices.log = some ⟨.queueFull, .clipControl, none, some x, some .master⟩)
      ∧ RaisesOnly (.clip :: .fault :: .high .master :: .high .proxy :: followUps) s t
      ∧ t.clips.rollFloor = raiseTo x s.clips.rollFloor
      ∧ t.clips.lamp = (if s.clips.tallyMode = .auto then .dark else s.clips.lamp)
      ∧ t.queue.agingLine = raiseTo (x + 1) s.queue.agingLine
      ∧ t.queue.intakeMarks = ⟨some (x + 1), s.queue.intakeMarks.proxy⟩
      ∧ (∀ st, t.entries st = s.entries st)
      ∧ t.master = { s.master with picture := none } ∧ t.intake = s.intake ∧ t.proxy = s.proxy
      ∧ t.governor = s.governor ∧ t.lines = s.lines ∧ KeepsSettings s t ∧ t.shared = s.shared) ∧
  (∀ (s : State) (p : MasterPicture) (n : Nat) (c : Clip), Calm s → s.master.picture = some p →
    1 ≤ n → n ≤ p.width * p.height * 3 → p.settings.cap = 0 → s.inputs.master = [] →
    s.clipList = [c] → c.closing = none → isBelow p.item.frame c.first = false →
    (∀ st, ∀ e ∈ s.entries st, e.clip = some c.number ∧ e.kind ≠ .trailer) →
    (∀ e ∈ s.entries .master, isBelow (frameAfter e.frame e.count - 1) p.item.frame = true) →
    c.reach.master = p.item.frame → isBelow p.item.frame c.reach.proxy = true → c.queued = ⟨false, false⟩ →
    ¬ HasRoom .master (n + 32) s →
    let x := p.item.frame
    let gone := (s.entries .proxy).filter fun e => !isBelow (frameAfter e.frame e.count - 1) x
    let removed := gone.filter fun e => !isBelow e.frame x
    let cut := gone.filter fun e => isBelow e.frame x
    let kept := fun st => (s.entries st).filterMap fun e =>
      if isBelow (frameAfter e.frame e.count - 1) x then some e
      else if isBelow e.frame x then some { e with count := (x - e.frame).toNat }
      else none
    let number := fun q : Entry → Bool => (removed.filter q).length
    let marks := c.marks.filter fun m => !isBelow (x - 1) m.frame
    let closing : Closing := ⟨x - 1,
      if 8188 < (s.entries .master).length + 1 then .brokenIndexFull else .brokenMasterFull⟩
    let broken : Clip := { c with
      closing := some closing
      reach := ⟨x, x⟩
      counts := ⟨c.counts.master,
        { entries := c.counts.proxy.entries - removed.length
          repeats := c.counts.proxy.repeats - number (·.kind == .repeated)
          gaps := c.counts.proxy.gaps - ((removed.filter (·.kind == .gap)).map Entry.count).sum
            - (cut.map fun e => e.count - (x - e.frame).toNat).sum
          oversize := c.counts.proxy.oversize - (number (·.oversize) - c.counts.proxy.oversizePast)
          unlocked := c.counts.proxy.unlocked - number (·.unlocked)
          oversizePast := c.counts.proxy.oversizePast - number (·.oversize) }⟩
      marks := marks
      lostMarks := min (c.lostMarks + (c.marks.length - marks.length)) 255
      queued := ⟨true, true⟩ }
    ∃ t, exec (.attemptEnd n) s = .next t
      ∧ t.clipList = [broken]
      ∧ (∀ st, t.entries st = kept st ++ [trailerOf s broken closing st])
      ∧ t.queue.agingLine =
        raiseTo ((gone.foldl (fun newest e => raiseTo (frameAfter e.frame e.count - 1) newest) x) + 1)
          s.queue.agingLine
      ∧ t.clips.rollFloor = raiseTo x s.clips.rollFloor
      ∧ t.clips.lastEvent = some (.broken, c.number) ∧ t.isPending .clip = true ∧ t.isPending .fault = true
      ∧ RaisesOnly (.clip :: .fault :: .high .master :: .high .proxy :: followUps) s t
      ∧ t.master = { s.master with picture := none } ∧ t.intake = s.intake ∧ t.proxy = s.proxy
      ∧ t.governor = s.governor ∧ t.lines = s.lines ∧ KeepsSettings s t ∧ t.shared = s.shared)

/-- R22 and R39: a slot item that a good frame end appends to the empty list of an IDLE coder begins a
picture at once, under the geometry and settings in force, the table's contents where it is READY, and the
activity indices measured from the slot's lines. The other coder is CODING. The last part spells out what is
measured and scaled: the activity index of each tile, row by row (R23), and each proxy pixel (R41, R42). -/
def Obligations.FrameEndBegins : Prop :=
  (∀ (s : State) (a : Arrival) (g : Geometry) (i : Nat) (x : Slot), Calm s →
    s.intake.state ≠ .stopped → s.intake.arrival = some a → s.intake.geometry = some g →
    a.slot = some i → s.slots[i]? = some x → a.bad = false → a.lines = g.height →
    let item : SlotItem := ⟨i, a.frame, a.label, a.unlocked, a.phase⟩
    let ended : State :=
      { s with
        intake := { s.intake with arrival := none }
        slots := s.slots.set i { x with state := .ready, refs := 2 } }
    (s.master.picture = none → s.inputs.master = [] → s.proxy.picture.isSome = true →
      let source := if s.master.tableState = .ready then some s.master.table else none
      let indices := activityIndices g.width g.height x.lines
      ∃ t, exec .frameEnd s = .next t ∧
        Follows
          { ended with
            inputs := ⟨[], s.inputs.proxy ++ [.slot item]⟩
            master := { s.master with
              picture := some ⟨item, g.width, g.height, s.master.settings, source, indices, 1,
                s.master.settings.step,
                indices.map (tileStepOf source s.master.settings.offsets s.master.settings.step),
                none⟩ } } t) ∧
    (s.master.picture.isSome = true → s.proxy.picture = none → s.inputs.proxy = [] →
      s.governor.inputs.mode = .off →
      let curve := if s.proxy.curveState = .ready then some s.proxy.curve else none
      ∃ t, exec .frameEnd s = .next t ∧
        Follows
          { ended with
            inputs := ⟨s.inputs.master ++ [.slot item], []⟩
            governor := { s.governor with openPicture := true }
            proxy := { s.proxy with
              picture := some ⟨item, g, s.proxy.filter, s.governor.inputs.qstart, curve,
                proxyPixels g s.proxy.filter curve x.lines⟩ } } t)) ∧
  (∀ (w h : Nat) (lines : List (List Pixel)), lines.length = h → (∀ l ∈ lines, l.length = w) →
    activityIndices w h lines = (List.range ((h + 63) / 64)).flatMap fun row =>
      (List.range ((w + 127) / 128)).map fun column => activityOf w h lines row column) ∧
  (∀ (g : Geometry) (filter : Filter) (curve : Option (List Nat)) (lines : List (List Pixel)),
    proxyPixels g filter curve lines = (List.range (g.height / g.factor)).map fun y =>
      (List.range (g.width / g.factor)).map fun x => proxyPixelOf g filter curve lines x y)

/-- R57 to R59: a decision in DEGRADE or SKIP brings in the allowance a = floor((n + r) / num), and the
available credit is V = min(C + a, B). In SKIP with V below T the picture is a REPEAT that costs 32 bytes and
gives the slot back; otherwise it is coded at Q with C at V. A REPEAT entry of a frame that the recording clip
takes joins the proxy queue for it (R38, R75, R103). -/
def Obligations.FrameEndDecides : Prop :=
  ∀ (s : State) (a : Arrival) (g : Geometry) (i : Nat) (x : Slot),
    s.intake.state ≠ .stopped → s.intake.arrival = some a → s.intake.geometry = some g →
    a.slot = some i → s.slots[i]? = some x → a.bad = false → a.lines = g.height →
    s.master.picture.isSome = true → s.proxy.picture = none → s.inputs.proxy = [] →
    s.governor.inputs.mode ≠ .off →
    let item : SlotItem := ⟨i, a.frame, a.label, a.unlocked, a.phase⟩
    let r := rateOf g.code
    let v : Int := min (s.governor.credit + ((s.governor.n + s.governor.remainder) / r.num : Nat))
      s.governor.burst
    let rest := (s.governor.n + s.governor.remainder) % r.num
    (s.governor.inputs.mode = .skip → v < s.governor.skipAt →
      ∃ t, exec .frameEnd s = .next t ∧ t.intake = { s.intake with arrival := none }
        ∧ t.inputs = ⟨s.inputs.master ++ [.slot item], []⟩ ∧ t.master = s.master ∧ t.proxy = s.proxy
        ∧ t.governor = { s.governor with
            credit := v - 32, remainder := rest, repeats := min (s.governor.repeats + 1) (2 ^ 32 - 1) }
        ∧ t.slots = s.slots.set i { x with state := .ready, refs := 1 }
        ∧ t.queue.intakeMarks = ⟨s.queue.intakeMarks.master, some (a.frame + 1)⟩
        ∧ t.lines = s.lines ∧ KeepsSettings s t ∧ t.shared = s.shared) ∧
    (∀ c, Calm s → s.governor.inputs.mode = .skip → v < s.governor.skipAt → TakesFrame c a.frame s →
      HasRoom .proxy 32 s →
      ∃ t, exec .frameEnd s = .next t ∧
        Follows
          (withJoined .proxy c
            [⟨.repeated, .proxy, a.frame, 1, a.label, none, 32, false, a.unlocked, false, 0, 0, a.phase, .none⟩]
            { s with
              intake := { s.intake with arrival := none }
              slots := s.slots.set i { x with state := .ready, refs := 1 }
              inputs := ⟨s.inputs.master ++ [.slot item], []⟩
              governor := { s.governor with
                credit := v - 32, remainder := rest, repeats := min (s.governor.repeats + 1) (2 ^ 32 - 1) }
              queue := { s.queue with
                intakeMarks := ⟨s.queue.intakeMarks.master, some (a.frame + 1)⟩ } }) t) ∧
    (Calm s → s.governor.inputs.mode = .degrade ∨ s.governor.skipAt ≤ v →
      let curve := if s.proxy.curveState = .ready then some s.proxy.curve else none
      ∃ t, exec .frameEnd s = .next t ∧
        Follows
          { s with
            intake := { s.intake with arrival := none }
            slots := s.slots.set i { x with state := .ready, refs := 2 }
            inputs := ⟨s.inputs.master ++ [.slot item], []⟩
            governor := { s.governor with credit := v, remainder := rest, openPicture := true }
            proxy := { s.proxy with
              picture := some ⟨item, g, s.proxy.filter, s.governor.step, curve,
                proxyPixels g s.proxy.filter curve x.lines⟩ } } t)

/-- R44 and R61 to R63: when proxy coding ends, the entry goes to the Queue Manager, the slot is released and
the path is IDLE. In DEGRADE and SKIP the coded size S is charged, a debt deeper than B cut back and counted,
and Q goes up by one and at most seven more while C is below 0, or down by one while C is at least
floor(B / 2) and Q above Qmin. With no clip and pre-roll off the entry is dropped (R77). One of a frame that
the recording clip takes joins the proxy queue for it (R75, R103); where only its bytes have no room there and no
held entry can be aged out, a REPEAT entry of 32 bytes stands in for it (R85), and the governor is charged all
the same. One of the last frame of a closed clip that the master stream has covered queues both trailers behind
it (R106, R107), and their overrun delta has this picture's overrun, which the governor has counted before the
join (R44; log entry 23). The last release leaves the slot FREE (R8). The proxy list is empty. The entry's bytes
are those of the coding's tag (log entry 1). -/
def Obligations.ProxyCodingEndCharges : Prop :=
  ∀ (s : State) (p : ProxyPicture) (n : Nat) (x : Slot), s.proxy.picture = some p →
    1 ≤ n → n ≤ (p.geometry.width / p.geometry.factor) * (p.geometry.height / p.geometry.factor) * 3 →
    s.inputs.proxy = [] → s.slots[p.item.slot]? = some x → x.state = .ready → 1 ≤ x.refs →
    let cut : Int := max (s.governor.credit - (n + 32 : Nat)) (-s.governor.burst)
    let step :=
      if cut < 0 then
        min (s.governor.step + 1 + min ((-cut).toNat / s.governor.nominal) 7) s.governor.inputs.qmax
      else if ((s.governor.burst / 2 : Nat) : Int) ≤ cut ∧ s.governor.inputs.qmin < s.governor.step then
        s.governor.step - 1
      else s.governor.step
    let after : Governor :=
      if s.governor.inputs.mode = .off then { s.governor with openPicture := false }
      else
        { s.governor with
          openPicture := false
          credit := cut
          step := step
          overruns := if s.governor.credit - (n + 32 : Nat) < -s.governor.burst then
              min (s.governor.overruns + 1) (2 ^ 32 - 1) else s.governor.overruns }
    (∃ t, exec (.proxyCodingEnd n) s = .next t ∧ t.governor = after ∧ t.proxy.picture = none
      ∧ t.slots = s.slots.set p.item.slot (slotReleased x) ∧ t.master = s.master
      ∧ t.queue.intakeMarks.proxy = some (p.item.frame + 1)) ∧
    (Calm s → s.clipList = [] → s.queue.depth = 0 →
      ∃ t, exec (.proxyCodingEnd n) s = .next t ∧
        Follows
          { s with
            freeTag := t.freeTag
            proxy := { s.proxy with picture := none }
            governor := after
            slots := s.slots.set p.item.slot (slotReleased x)
            queue := { s.queue with
              intakeMarks := ⟨s.queue.intakeMarks.master, some (p.item.frame + 1)⟩ } } t) ∧
    (∀ c, Calm s → TakesFrame c p.item.frame s →
      let ended : State :=
        { s with
          freeTag := s.freeTag + 1
          proxy := { s.proxy with picture := none }
          governor := after
          slots := s.slots.set p.item.slot (slotReleased x)
          queue := { s.queue with
            intakeMarks := ⟨s.queue.intakeMarks.master, some (p.item.frame + 1)⟩ } }
      (HasRoom .proxy (n + 32) s →
        ∃ t, exec (.proxyCodingEnd n) s = .next t ∧
          Follows (withJoined .proxy c
            [⟨.coded, .proxy, p.item.frame, 1, p.item.label, none, n + 32, false, p.item.unlocked, false, p.step,
              1, p.item.phase, .coded s.freeTag⟩] ended) t) ∧
      (¬ HasRoom .proxy (n + 32) s → HasRoom .proxy 32 s → (∀ st, ∀ y ∈ s.entries st, y.clip ≠ none) →
        ∃ t, exec (.proxyCodingEnd n) s = .next t ∧
          Follows (withJoined .proxy c
            [⟨.repeated, .proxy, p.item.frame, 1, p.item.label, none, 32, false, p.item.unlocked, false, 0, 0,
              p.item.phase, .none⟩] ended) t)) ∧
    (∀ c k, Calm s → s.clipList = [c] → c.closing = some k → k.last = p.item.frame →
      isBelow p.item.frame c.first = false → c.reach.master = p.item.frame + 1 → c.queued = ⟨false, false⟩ →
      (∀ st, ∀ y ∈ s.entries st, y.clip = some c.number) → HasRoom .proxy (n + 32) s →
      let e : Entry := ⟨.coded, .proxy, p.item.frame, 1, p.item.label, some c.number, n + 32, false,
        p.item.unlocked, false, p.step, 1, p.item.phase, .coded s.freeTag⟩
      let ended : State :=
        { s with
          freeTag := s.freeTag + 1
          proxy := { s.proxy with picture := none }
          governor := after
          slots := s.slots.set p.item.slot (slotReleased x)
          queue := { s.queue with
            intakeMarks := ⟨s.queue.intakeMarks.master, some (p.item.frame + 1)⟩ } }
      let trailer := trailerOf ended (clipWith e c) k
      ∃ t, exec (.proxyCodingEnd n) s = .next t ∧
        Follows
          (withEntries .proxy (s.entries .proxy ++ [e, trailer .proxy])
            (withEntries .master (s.entries .master ++ [trailer .master])
              (withEntries .proxy (s.entries .proxy ++ [e])
                (withClip { clipWith e c with queued := ⟨true, true⟩ } ended)))) t)

/-- R30 and R46: self-initialisation leaves class 1 in every activity entry, and the identity curve
min(128k, 4095), and the table is READY. A LOAD_TABLE that waits for the table begins to read its source
(R32, R48). -/
def Obligations.TablesBecomeReady : Prop :=
  ∀ s : State, Calm s →
    let master : State :=
      { s with master := { s.master with table := List.replicate 64 1, tableState := .ready } }
    let proxy : State :=
      { s with proxy := { s.proxy with
        curve := (List.range 33).map (fun k => min (128 * k) 4095), curveState := .ready } }
    let reads := fun (b : Block) (u : State) =>
      walkerAsks
        ⟨.table, b.loadFields.source,
          min (if b.loadFields.table = 0 then b.loadFields.count else 66)
            (4096 - b.loadFields.source % 4096), []⟩
        (.reading []) b { u with walker := { u.walker with state := .walking } }
    (s.master.tableState = .initialising → s.flight ≠ some .loadTable →
      ∃ t, exec .activityTableInitEnd s = .next t ∧ Follows master t) ∧
    (s.proxy.curveState = .initialising → s.flight ≠ some .loadTable →
      ∃ t, exec .lookCurveInitEnd s = .next t ∧ Follows proxy t) ∧
    (∀ b, FliesAs .loadTable b s → s.walker.state = .waiting →
      (s.master.tableState = .initialising → b.loadFields.table = 0 →
        ∃ t, exec .activityTableInitEnd s = .next t ∧ Follows (reads b master) t) ∧
      (s.proxy.curveState = .initialising → b.loadFields.table = 1 →
        ∃ t, exec .lookCurveInitEnd s = .next t ∧ Follows (reads b proxy) t))

/-! ## Clips, marks and tally -/

/-- R87, R98 and R99: a ROLL that is carried out opens a clip in the lowest free record, at the first frame of
R98, with the record's counts and reaches of R103 and the next clip number of R95 (`Opens`); a directive ROLL
completes DONE with the clip number, a line's has no outcome (R97). The start timecode is the first held
entry's, the master queue's entries being reported first (R104; log entry 39). -/
def Obligations.RollOpens : Prop :=
  ∀ (s : State) (k : Nat), Calm s → MayOpen k s →
    (∀ b, FliesAs .roll b s →
      ∃ t, exec (.roll .directive) s = .next t ∧ Opens k s t ∧ t.lines.requests = s.lines.requests
        ∧ t.walker = (answered .done s.clips.nextNumber b s).walker) ∧
    (∀ n, firstRequest n s.lines.requests = some .roll →
      ∃ t, exec (.roll (.line n)) s = .next t ∧ Opens k s t ∧ t.walker = s.walker
        ∧ t.lines.requests = withoutRequest n s.lines.requests)

/-- R97, cases 1 to 3: with a clip RECORDING a directive ROLL completes ALREADY with its number and a line's
has no effect; with intake not RUNNING, or no record free, a directive ROLL is refused, and a line's raises
CLIP with ROLL_REFUSED and clip number 0. -/
def Obligations.RollRefused : Prop :=
  ∀ s : State, Calm s →
    let refused := fun u : State =>
      raise .clip { u with clips := { u.clips with lastEvent := some (.rollRefused, 0) } }
    (∀ b, FliesAs .roll b s →
      (∀ c, Records c s →
        ∃ t, exec (.roll .directive) s = .next t ∧ Follows (answered .already c.number b s) t) ∧
      (s.recording = none → s.intake.state ≠ .running →
        ∃ t, exec (.roll .directive) s = .next t ∧ Follows (answered .notRunning 0 b s) t) ∧
      (s.recording = none → s.intake.state = .running → none ∉ s.clips.table →
        ∃ t, exec (.roll .directive) s = .next t ∧ Follows (answered .tableFull 0 b s) t)) ∧
    (∀ n, firstRequest n s.lines.requests = some .roll →
      let taken : State :=
        { s with lines := { s.lines with requests := withoutRequest n s.lines.requests } }
      (∀ c, Records c s → ∃ t, exec (.roll (.line n)) s = .next t ∧ Follows taken t) ∧
      (s.recording = none → s.intake.state ≠ .running ∨ none ∉ s.clips.table →
        ∃ t, exec (.roll (.line n)) s = .next t ∧ Follows (refused taken) t))

/-- R101 and R102: a CUT closes the recording clip with the most recent start as L, or cancels a clip whose
first frame has not started; CLIP is raised and in AUTO the lamp goes dark and a blink ends. With no clip
RECORDING a directive CUT completes ALREADY and a line's has no effect. R88, R106 and R107: where both streams
have reached L + 1, the two trailers are queued at once, each directly after the clip's last entry in its
queue, here the last entry of the queue, with the clip record, the stream's own counts and the marks. -/
def Obligations.CutEnds : Prop :=
  (∀ s : State, Calm s →
     let dark := fun u : State =>
       { u with clips := { u.clips with
         lamp := if u.clips.tallyMode = .auto then .dark else u.clips.lamp
         blinkTimer := if u.clips.tallyMode = .auto then none else u.clips.blinkTimer } }
     let closed := fun (c : Clip) (x : Frame) (u : State) =>
       dark (raise .clip { withClip { c with closing := some ⟨x, .cutStopped⟩ } u with
         clips := { (withClip { c with closing := some ⟨x, .cutStopped⟩ } u).clips with
           rollFloor := raiseTo (x + 1) u.clips.rollFloor, lastEvent := some (.closed, c.number) } })
     let cancelled := fun (c : Clip) (u : State) =>
       dark (raise .clip { u with clips := { u.clips with
         table := u.clips.table.map fun r => r.filter fun d => d.number != c.number
         lastEvent := some (.cancelled, c.number) } })
     (∀ b, FliesAs .cut b s →
       (s.recording = none →
         ∃ t, exec (.cut .directive) s = .next t ∧ Follows (answered .already 0 b s) t) ∧
       (∀ c, Records c s →
         (s.clips.recentStart.all (fun x => isBelow x c.first) = true →
           ∃ t, exec (.cut .directive) s = .next t ∧
             Follows (answered .cancelled c.number b (cancelled c s)) t) ∧
         (∀ x, s.clips.recentStart = some x → isBelow x c.first = false → c.reach ≠ ⟨x + 1, x + 1⟩ →
           ∃ t, exec (.cut .directive) s = .next t ∧
             Follows (answered .done c.number b (closed c x s)) t))) ∧
     (∀ n, firstRequest n s.lines.requests = some .cut →
       let taken : State :=
         { s with lines := { s.lines with requests := withoutRequest n s.lines.requests } }
       (s.recording = none → ∃ t, exec (.cut (.line n)) s = .next t ∧ Follows taken t) ∧
       (∀ c, Records c s →
         (s.clips.recentStart.all (fun x => isBelow x c.first) = true →
           ∃ t, exec (.cut (.line n)) s = .next t ∧ Follows (cancelled c taken) t) ∧
         (∀ x, s.clips.recentStart = some x → isBelow x c.first = false → c.reach ≠ ⟨x + 1, x + 1⟩ →
           ∃ t, exec (.cut (.line n)) s = .next t ∧ Follows (closed c x taken) t)))) ∧
  (∀ (s : State) (source : Source) (k : Block) (c : Clip) (x : Frame) (st : Stream) (e : Entry), Calm s →
     (source = .directive → FliesAs .cut k s) →
     (∀ n, source = .line n → firstRequest n s.lines.requests = some .cut) → Records c s →
     s.clips.recentStart = some x → isBelow x c.first = false → c.reach = ⟨x + 1, x + 1⟩ →
     c.queued = ⟨false, false⟩ → (s.entries st).getLast? = some e → e.clip = some c.number →
     ∃ t, exec (.cut source) s = .next t ∧
       (t.clipNumbered c.number).map (fun d => (d.closing, d.queued))
         = some (some ⟨x, .cutStopped⟩, ⟨true, true⟩) ∧
       t.entries st = s.entries st ++ [trailerOf s c ⟨x, .cutStopped⟩ st] ∧
       t.walker = (match source with
         | .directive => (answered .done c.number k s).walker
         | .line _ => s.walker) ∧
       KeepsIntake s t ∧ KeepsCoders s t ∧ KeepsSettings s t ∧ KeepsLog s t ∧ t.shared = s.shared
         ∧ t.lines.lines = s.lines.lines ∧ t.writers.grants = s.writers.grants)

/-- R149: a toggle that Clip Control takes is a ROLL with no clip RECORDING and a CUT with one, which closes the
clip (R101) or, where its first frame has not started, cancels it (R102). -/
def Obligations.ToggleActs : Prop :=
  ∀ (s : State) (n : LineNo), Calm s → firstRequest n s.lines.requests = some .toggle →
    let taken : State :=
      { s with lines := { s.lines with requests := withoutRequest n s.lines.requests } }
    (∀ k, MayOpen k s →
      ∃ t, exec (.toggle n) s = .next t ∧ Opens k s t ∧ t.walker = s.walker
        ∧ t.lines.requests = taken.lines.requests) ∧
    (s.recording = none → s.intake.state ≠ .running ∨ none ∉ s.clips.table →
      ∃ t, exec (.toggle n) s = .next t ∧ t.isPending .clip = true
        ∧ t.clips = { s.clips with lastEvent := some (.rollRefused, 0) } ∧ t.queue = s.queue
        ∧ t.lines = taken.lines ∧ RaisesOnly (.clip :: followUps) s t) ∧
    (∀ c x, Records c s → s.clips.recentStart = some x → isBelow x c.first = false →
      ∃ t, exec (.toggle n) s = .next t
        ∧ (t.clipNumbered c.number).map Clip.closing = some (some ⟨x, .cutStopped⟩)
        ∧ t.clips.lastEvent = some (.closed, c.number) ∧ t.isPending .clip = true
        ∧ t.clips.rollFloor = raiseTo (x + 1) s.clips.rollFloor ∧ t.walker = s.walker
        ∧ t.lines = taken.lines ∧ KeepsIntake s t ∧ KeepsCoders s t) ∧
    (∀ c, Records c s → s.clips.recentStart.all (fun x => isBelow x c.first) = true →
      ∃ t, exec (.toggle n) s = .next t ∧
        Follows
          (raise .clip { taken with clips := { s.clips with
            table := s.clips.table.map fun r => r.filter fun d => d.number != c.number
            lastEvent := some (.cancelled, c.number)
            lamp := if s.clips.tallyMode = .auto then .dark else s.clips.lamp
            blinkTimer := if s.clips.tallyMode = .auto then none else s.clips.blinkTimer } }) t)

/-- R109 to R111: where a mark goes, the frame it gets, and what a MARK directive answers. A listed mark
raises MARK, and starts a blink in AUTO while the lamp is LIT and the blink time is not 0 (R114). A directive
whose kind is neither GOOD nor FLAG is refused RANGE and makes no mark. -/
def Obligations.MarkTaken : Prop :=
  (∀ (s : State) (kind : MarkKind) (source : Source) (b : Block), Calm s →
     (source = .directive → InHand .mark b s ∧ b.u8 32 = (if kind = .good then 1 else 2)) →
     (∀ n, source = .line n → firstRequest n s.lines.requests = some (.mark kind)) →
     let base : State := match source with
       | .directive => s
       | .line n => { s with lines := { s.lines with requests := withoutRequest n s.lines.requests } }
     let wrap := fun (v : Verdict) (detail : Nat) (u : State) => match source with
       | .directive => answered v detail b u
       | .line _ => u
     let listed := fun u : State =>
       let lights := u.clips.tallyMode = .auto ∧ u.clips.lamp = .lit ∧ u.clips.blinkTime ≠ 0
       raise .mark { u with clips := { u.clips with
         lamp := if lights then .blink else u.clips.lamp
         blinkTimer := if lights then some u.clips.blinkTime else u.clips.blinkTimer } }
     (∀ c, Records c s → c.marks.length < 32 →
       let frame := match s.clips.recentStart with
         | none => c.first
         | some x => if isBelow x c.first then c.first else x
       ∃ t, exec (.mark source) s = .next t ∧
         Follows (wrap .done c.number (listed (withClip
           { c with marks := c.marks ++ [⟨frame, kind, source⟩] } base))) t) ∧
     (∀ c, Records c s → 32 ≤ c.marks.length →
       ∃ t, exec (.mark source) s = .next t ∧
         Follows (wrap .partly c.number (withClip
           { c with lostMarks := min (c.lostMarks + 1) 255 } base)) t) ∧
     (∀ x, s.recording = none → s.clips.recentStart = some x →
       s.queue.depth ≠ 0 → s.intake.geometry ≠ none → isBelow x s.queue.agingLine = false →
       let full := 8 ≤ s.clips.held.length
       ∃ t, exec (.mark source) s = .next t ∧
         Follows (wrap .done 0 (listed { base with clips := { s.clips with
           held := (if full then s.clips.held.tail else s.clips.held) ++ [⟨x, kind, source⟩]
           heldLost := if full then min (s.clips.heldLost + 1) (2 ^ 32 - 1) else s.clips.heldLost } })) t) ∧
     (s.recording = none →
       s.clips.recentStart.all (fun x => isBelow x s.queue.agingLine) = true ∨ s.queue.depth = 0 →
       ∃ t, exec (.mark source) s = .next t ∧
         Follows (wrap .partly 0 { base with clips := { s.clips with
           heldLost := min (s.clips.heldLost + 1) (2 ^ 32 - 1) } }) t)) ∧
  (∀ (s : State) (b : Block), Calm s → InHand .mark b s → b.u8 32 ≠ 1 → b.u8 32 ≠ 2 →
     ∃ t, exec (.mark .directive) s = .next t ∧ Follows (answered .range 0 b s) t)

/-- R114: when the blink timer expires, the lamp becomes LIT if a clip is RECORDING and the mode is AUTO. R137:
the courtesy gap of a stream ends when its timer expires, and its writer, out of GAP, requests its next burst
where it is offered an entry and has a segment (R122, R126, R192; `WriterActs`). A timer that does not run has no expiry (log entry
14). -/
def Obligations.TimersEnd : Prop :=
  (∀ s : State,
     (s.clips.blinkTimer = none → exec .blinkTimerExpiry s = .next s) ∧
     (∀ n, s.clips.blinkTimer = some n →
       exec .blinkTimerExpiry s = .next { s with clips := { s.clips with
         blinkTimer := none
         lamp := if s.recording ≠ none ∧ s.clips.tallyMode = .auto then .lit else s.clips.lamp } })) ∧
  (∀ (s : State) (st : Stream),
     ((s.writer st).gapTimer = none → exec (.gapTimerExpiry st) s = .next s) ∧
     (Calm s → (s.writer st).gapTimer ≠ none →
       ∃ t, exec (.gapTimerExpiry st) s = .next t ∧
         Follows { s with writers := { s.writers with
           streams := s.writers.streams.set { s.writer st with gapTimer := none } st } } t))

/-! ## The Stream Writers and the port -/

/-- R126 to R128 and R137: an OK burst of a writer, of `b.length` bytes of its queue's front entry. The write
position and the written count go on; an entry begins in the segment with its first byte, and its start is
cleared with its last; the courtesy-gap count grows, and at 262,144 bytes a gap begins. When the entry's last
byte has gone, it leaves its queue (R90). The writer's state, its next segment and its next burst follow at once
(R122 to R126; `WriterActs`). Here the segment has room for more, no trailer ends, and no
RELINQUISH is in hand. -/
def Obligations.WriterBurstAdvances : Prop :=
  ∀ (s : State) (st : Stream) (b : Burst) (e : Entry) (c : Current), Calm s →
    OnPort (writerRequester st) .entry b s → (s.entries st).head? = some e →
    (s.writer st).current = some c →
    let w := s.writer st
    let ends := e.size ≤ w.written + b.length
    let position := c.position + b.length
    let c' : Current :=
      { c with
        position := position
        clip := c.clip.or e.clip
        begun := if w.written = 0 then c.begun + 1 else c.begun
        first := if w.written = 0 then c.first.or (some e.frame) else c.first
        entryStart := if ends then none else if w.written = 0 then some c.position else c.entryStart }
    let gaps := s.writers.gapTime ≠ 0 ∧ 262144 ≤ w.gapCount + b.length
    let w' : Writer :=
      { w with
        current := some c'
        written := if ends then 0 else w.written + b.length
        gapCount := if s.writers.gapTime = 0 ∨ gaps then 0 else w.gapCount + b.length
        gapTimer := if gaps then some s.writers.gapTime else w.gapTimer }
    let left := (s.entries st).tail
    let above := decide
      ((match st with | .master => 6442450944 | .proxy => 1073741824) * s.queue.highMark / 100
        ≤ bytesInUse left)
    position + (if ends then 32 else 1) ≤ c.segment.length →
    e.kind ≠ .trailer →
    (¬ ends →
      ∃ t, exec .writerBurstDone s = .next t ∧
        Follows
          { portEnded (writerRequester st) b s with
            writers := { s.writers with streams := s.writers.streams.set w' st } } t) ∧
    (ends → (above = true → (s.queue.queues.get st).aboveMark = true) →
      ∃ t, exec .writerBurstDone s = .next t ∧
        Follows
          { portEnded (writerRequester st) b s with
            writers := { s.writers with streams := s.writers.streams.set w' st }
            queue := { s.queue with queues := s.queue.queues.set ⟨left, above⟩ st } } t)

/-- R127 to R129: the burst that fills a segment closes it FULL with its write position as bytes used; the
entry goes on in the next segment from the byte it has reached. A burst that ends an entry with fewer than 32
bytes left in the segment, or exactly at its end, closes it FULL too. The burst that ends a trailer closes it
CLIP_END, be it full or not, and the trailer leaves its queue. The result goes to the Page Writer. R108: the
trailer's clip has its flag of that stream set, and when both are set the clip is retired: its record is
free, the last clip event is RETIRED and CLIP is raised. R133: where a close of a RELINQUISH is still to come, the
segment closes RELINQUISHED at the end of the burst (log entry 34) or, for an entry mid-write, of the entry or the
segment, and the result counts for the RELINQUISH; until then the writer goes on with the entry. The reason
replaces FULL. That it also replaces CLIP_END, where a trailer ends while the close waits, is the model's choice
(log entry 17). -/
def Obligations.WriterBurstCloses : Prop :=
  (∀ (s : State) (st : Stream) (b : Burst) (e : Entry) (c : Current),
     OnPort (writerRequester st) .entry b s → (s.entries st).head? = some e →
     (s.writer st).current = some c → (s.writer st).relinquish = none → s.walker.state ≠ .resetting →
     let w := s.writer st
     let ends := e.size ≤ w.written + b.length
     let result := fun (reason : Reason) =>
       (⟨st, c.segment, c.position + b.length, (c.clip.or e.clip).getD 0,
         (if w.written = 0 then c.first.or (some e.frame) else c.first).getD 0,
         min (if w.written = 0 then c.begun + 1 else c.begun) 65535, c.continued, reason, true, false⟩ : Result)
     (¬ ends → c.segment.length ≤ c.position + b.length →
       ∃ t, exec .writerBurstDone s = .next t ∧ t.page.results.filter (·.stream == st)
           = s.page.results.filter (·.stream == st) ++ [result .full]
         ∧ (t.writer st).current = none ∧ (t.writer st).written = w.written + b.length
         ∧ t.queue = s.queue ∧ t.clips = s.clips ∧ KeepsIntake s t ∧ KeepsCoders s t) ∧
     (ends → e.kind ≠ .trailer → c.segment.length < c.position + b.length + 32 →
       ∃ t, exec .writerBurstDone s = .next t ∧ t.page.results.filter (·.stream == st)
           = s.page.results.filter (·.stream == st) ++ [result .full]
         ∧ (t.writer st).current = none ∧ (t.writer st).written = 0
         ∧ t.entries st = (s.entries st).tail ∧ t.clips = s.clips ∧ KeepsIntake s t ∧ KeepsCoders s t) ∧
     (ends → e.kind = .trailer →
       ∃ t, exec .writerBurstDone s = .next t ∧ t.page.results.filter (·.stream == st)
           = s.page.results.filter (·.stream == st) ++ [result .clipEnd]
         ∧ (t.writer st).current = none ∧ (t.writer st).written = 0
         ∧ t.entries st = (s.entries st).tail ∧ KeepsIntake s t ∧ KeepsCoders s t)) ∧
  (∀ (s : State) (st : Stream) (b : Burst) (e : Entry) (c : Clip) (k : Current),
     OnPort (writerRequester st) .entry b s → (s.entries st).head? = some e → e.kind = .trailer →
     (s.writer st).current = some k → e.size ≤ (s.writer st).written + b.length →
     e.clip = some c.number → c ∈ s.clipList → (∀ d ∈ s.clipList, d.number = c.number → d = c) →
     (c.written.get (otherStream st) = true →
       ∃ t, exec .writerBurstDone s = .next t ∧ c.number ∉ t.clipList.map Clip.number
         ∧ t.clips.lastEvent = some (.retired, c.number) ∧ t.isPending .clip = true) ∧
     (c.written.get (otherStream st) = false →
       ∃ t, exec .writerBurstDone s = .next t
         ∧ (t.clipNumbered c.number).map Clip.written = some (c.written.set true st)
         ∧ t.clips.lastEvent = s.clips.lastEvent)) ∧
  (∀ (s : State) (st : Stream) (b : Burst) (e : Entry) (c : Current) (k : Block) (n : Nat) (early : Bool),
     OnPort (writerRequester st) .entry b s → (s.entries st).head? = some e →
     (s.writer st).current = some c → FliesAs (.relinquish st) k s → s.walker.state = .waiting →
     (s.writer st).relinquish = some ⟨some (if early then .afterBurst else .afterEntry), n⟩ →
     (s.writer (otherStream st)).relinquish = none →
     let w := s.writer st
     let ends := e.size ≤ w.written + b.length
     let position := c.position + b.length
     let clip := c.clip.or e.clip
     let first := if w.written = 0 then c.first.or (some e.frame) else c.first
     let begun := if w.written = 0 then c.begun + 1 else c.begun
     let closes := early = true ∨ ends ∨ c.segment.length ≤ position
     ∃ t, exec .writerBurstDone s = .next t ∧ t.walker = s.walker
       ∧ (t.writer st).segments = w.segments ∧ (t.writer st).written = (if ends then 0 else w.written + b.length)
       ∧ t.entries st = (if ends then (s.entries st).tail else s.entries st)
       ∧ KeepsIntake s t ∧ KeepsCoders s t ∧ t.writers.grants = s.writers.grants
       ∧ (closes → (t.writer st).current = none ∧ (t.writer st).relinquish = some ⟨none, n⟩
         ∧ t.page.results.filter (·.stream == st) = s.page.results.filter (·.stream == st)
           ++ [⟨st, c.segment, position, clip.getD 0, first.getD 0, min begun 65535, c.continued, .relinquished,
             true, true⟩])
       ∧ (¬ closes → (t.writer st).relinquish = (s.writer st).relinquish ∧ t.page.results = s.page.results
         ∧ (t.writer st).current = some { c with
           position := position, clip := clip, first := first, begun := begun
           entryStart := if w.written = 0 then some c.position else c.entryStart }))

/-- R130: the result fields of the oldest result have been written: the returned count of its grant increases
and is written to the grant head. When that burst ends, the segment is returned: its result leaves the queue,
M_RETURN or P_RETURN is raised, and a grant record whose count equals its slots is freed; the Page Writer then
takes a rewrite or a result by R187 (`PageActs`). An OK burst's bytes
stand in shared memory (log entry 4). -/
def Obligations.ResultsReturn : Prop :=
  ∀ (s : State) (b : Burst) (r : Result) (rest : List Result), Calm s →
    s.arbiter.port = some .page → s.arbiter.bursts.page = some b → s.page.results = r :: rest →
    (b.kind = .resultSlot →
      let grants := s.writers.grants.map fun g =>
        if g.block = r.segment.block then { g with returned := g.returned + 1 } else g
      let count := ((grants.find? fun g => g.block == r.segment.block).map GrantRecord.returned).getD 0
      ∃ t, exec .resultSlotBurstDone s = .next t ∧ t.writers.grants = grants
        ∧ t.arbiter.bursts.page = some ⟨.resultCount, r.segment.block + 34, 1, [BitVec.ofNat 8 count]⟩
        ∧ t.page.results = s.page.results ∧ t.shared = writeBytes s.shared b.address b.data
        ∧ KeepsIntake s t ∧ KeepsCoders s t ∧ KeepsRecords s t ∧ KeepsLog s t ∧ t.lines = s.lines
        ∧ t.walker = s.walker ∧ RaisesOnly followUps s t) ∧
    (b.kind = .resultCount → r.counted = false →
      ∃ t, exec .resultCountBurstDone s = .next t ∧
        Follows
          (raise (.returned r.stream)
            { portEnded .page b s with
              writers := { s.writers with grants := s.writers.grants.filter fun g => g.returned != g.slots }
              page := { s.page with results := rest } }) t)

/-- R138: a RETRY answer frees the port and counts, the port is granted anew by priority and ring (R135;
`PortActs`), and the burst waits again with its attempt count one higher,
until the count comes to 64 × n for n not 0. At the limit the burst fails with RETRY_LIMIT, here a page
rewrite (R140). That a burst answered RETRY has written nothing to shared memory is log entry 7's choice. -/
def Obligations.RetryWaitsOrFails : Prop :=
  ∀ (s : State) (r : Requester) (b : Burst), Calm s →
    s.arbiter.port = some r → s.arbiter.bursts.get r = some b → s.arbiter.resetBurst = false →
    let attempts := s.arbiter.attempts.get r + 1
    let counted : State :=
      { s with arbiter := { s.arbiter with
        port := none, retries := min (s.arbiter.retries + 1) (2 ^ 32 - 1) } }
    (s.writers.retry = 0 ∨ attempts < 64 * s.writers.retry →
      ∃ t, exec .burstRetry s = .next t ∧
        Follows { counted with arbiter := { counted.arbiter with
          attempts := s.arbiter.attempts.set attempts r } } t) ∧
    (s.writers.retry ≠ 0 → 64 * s.writers.retry ≤ attempts → r = .page → b.kind = .rewrite →
      ∃ t, exec .burstRetry s = .next t ∧
        Follows (reportFault ⟨.retryLimit, .pageWriter, some b.address, none, none⟩
          { counted with arbiter := { counted.arbiter with
            bursts := s.arbiter.bursts.set none .page } }) t)

/-- R138: a burst fails by an ERROR answer, SYSTEM_ERROR, or by the RETRY that comes to the limit, RETRY_LIMIT.
R140 and R167: a failed burst of the walker ends its chain by fault: FETCH_FAULT for a fetch or
a table read, WRITEBACK_FAULT for an outcome or a write of a GRANT, with the burst's address; CHAIN is raised and the record is
cleared (R168). No entry is pending. R139: a failed burst of a writer closes its segment BUS_FAULT, with the bytes of
the entry begun in it taken back, and the entry is to be written again whole; that completes a RELINQUISH's close
still to come (R133). The fault names
the writer, the burst's address, the entry's frame and the stream. After an ERROR the burst's bytes in shared memory
are unknown (log entry 7), and the frame of a walker fault is that of log entry 12. R131: a failed result write
still returns the segment, counted once, and reports RESULT_WRITE. A failed page rewrite is reported and the
Page Writer goes on (R140). -/
def Obligations.BurstErrorActs : Prop :=
  (∀ (s : State) (b : Burst) (k : Block) (limit : Bool), Calm s → Fails limit .walker s →
     OnPort .walker b.kind b s → s.walker.pendingEntry = none → s.walker.block = some k →
     let ended := fun (kind : FaultKind) (frame : Frame) =>
       raise .chain (reportFault ⟨kind, .directiveWalker, some b.address, some frame, none⟩
         { portFailed limit .walker b s with
           walker := { s.walker with
             state := .idle, block := none, lastBlock := none, continuation := none, count := 0
             haltRequest := false } })
     (b.kind = .header ∨ b.kind = .body ∨ b.kind = .table → (∀ o d f, k.stage ≠ .outcome o d f) →
       ∃ t, exec (failing limit) s = .next t ∧ Follows (ended .fetchFault s.intake.counter) t) ∧
     (b.kind = .refusedSlot ∨ b.kind = .walkerCount → (∀ o d f, k.stage ≠ .outcome o d f) →
       ∃ t, exec (failing limit) s = .next t ∧ Follows (ended .writebackFault s.intake.counter) t) ∧
     (b.kind = .outcome → ∀ o d f, k.stage = .outcome o d f →
       ∃ t, exec (failing limit) s = .next t ∧ Follows (ended .writebackFault f) t)) ∧
  (∀ (s : State) (st : Stream) (b : Burst) (e : Entry) (c : Current) (limit : Bool), s.isPending .fault = false →
     Fails limit (writerRequester st) s →
     OnPort (writerRequester st) .entry b s → (s.entries st).head? = some e →
     (s.writer st).current = some c → s.walker.state ≠ .resetting →
     let closing := ((s.writer st).relinquish.bind Relinquish.close).isSome
     (s.writer st).relinquish = none ∨ closing = true →
     ∃ t, exec (failing limit) s = .next t
       ∧ (∀ start, c.entryStart = some start →
         t.page.results.filter (·.stream == st) = s.page.results.filter (·.stream == st)
           ++ [⟨st, c.segment, start, c.clip.getD 0, if c.begun ≤ 1 then 0 else c.first.getD 0,
             min (c.begun - 1) 65535, c.continued, .busFault, true, closing⟩])
       ∧ (c.entryStart = none →
         t.page.results.filter (·.stream == st) = s.page.results.filter (·.stream == st)
           ++ [⟨st, c.segment, if (s.writer st).written = 0 then c.position else 0, c.clip.getD 0,
             c.first.getD 0, min c.begun 65535, c.continued, .busFault, true, closing⟩])
       ∧ (t.writer st).current = none ∧ (t.writer st).written = 0
       ∧ (t.writer st).relinquish = (s.writer st).relinquish.map (fun q => { q with close := none })
       ∧ t.shared = (portFailed limit (writerRequester st) b s).shared
       ∧ t.arbiter.retries = (portFailed limit (writerRequester st) b s).arbiter.retries
       ∧ t.notices.log = some ⟨failure limit, match st with | .master => .masterWriter | .proxy => .proxyWriter,
           some b.address, some e.frame, some st⟩
       ∧ t.isPending .fault = true ∧ RaisesOnly (.fault :: followUps) s t
       ∧ t.queue = s.queue ∧ t.clips = s.clips ∧ KeepsIntake s t ∧ KeepsCoders s t) ∧
  (∀ (s : State) (b : Burst) (limit : Bool), Calm s → s.arbiter.port = some .page →
     s.arbiter.bursts.page = some b → Fails limit .page s →
     let ended := portFailed limit .page b s
     (b.kind = .rewrite →
       ∃ t, exec (failing limit) s = .next t ∧
         Follows (reportFault ⟨failure limit, .pageWriter, some b.address, none, none⟩ ended) t) ∧
     (∀ r rest, b.kind = .resultSlot ∨ b.kind = .resultCount → s.page.results = r :: rest → r.counted = false →
       let grants := if b.kind = .resultSlot then
           s.writers.grants.map fun g =>
             if g.block = r.segment.block then { g with returned := g.returned + 1 } else g
         else s.writers.grants
       ∃ t, exec (failing limit) s = .next t ∧
         Follows
           (raise (.returned r.stream)
             (reportFault ⟨.resultWrite, .pageWriter, some b.address, some r.first, some r.stream⟩
               { ended with
                 writers := { s.writers with grants := grants.filter fun g => g.returned != g.slots }
                 page := { s.page with results := rest } })) t))

/-! ## Event lines and sync capture -/

/-- R147: a raw level that stays as it was only changes what drives the line; under a filter time above 0 a
change away from the filtered level starts the timer with the new level as target, and a change back cancels
it. With no filter timer running there is none to expire (log entry 14). -/
def Obligations.RawLevelFiltered : Prop :=
  (∀ (s : State) (n : LineNo) (l : Line) (drive : Option Level) (time : Nat), Calm s →
     s.lines.lines[n.val]? = some l →
     let after := fun l' : Line => { s with lines := { s.lines with lines := s.lines.lines.set n.val l' } }
     (drive.getD l.idle = l.drive.getD l.idle →
       ∃ t, exec (.rawLevelChange n drive time) s = .next t ∧ Follows (after { l with drive := drive }) t) ∧
     (l.filter ≠ .zero → drive.getD l.idle ≠ l.drive.getD l.idle →
       (drive.getD l.idle ≠ l.filtered → l.timer = none →
         ∃ t, exec (.rawLevelChange n drive time) s = .next t ∧
           Follows (after { l with drive := drive, timer := some (drive.getD l.idle) }) t) ∧
       (drive.getD l.idle = l.filtered →
         ∃ t, exec (.rawLevelChange n drive time) s = .next t ∧
           Follows (after { l with drive := drive, timer := none }) t))) ∧
  (∀ (s : State) (n : LineNo) (l : Line) (time : Nat),
     s.lines.lines[n.val]? = some l → l.timer = none → exec (.filterTimerExpiry n time) s = .next s)

/-- R147 to R151: the filtered level changes at once under filter time 0 (RAW_LEVEL_CHANGE), and at the
expiry of the timer otherwise (FILTER_TIMER_EXPIRY). The change is an edge; where the role and the edge
setting take it, LINEn is raised and the request of the role is handed to Clip Control. -/
def Obligations.EdgesAreHanded : Prop :=
  ∀ (s : State) (n : LineNo) (l : Line) (level : Level) (time : Nat), Calm s →
    s.lines.lines[n.val]? = some l → l.filtered ≠ level → l.role ≠ .syncRef →
    let taken := l.role = .rollHold ∨
      (l.role ≠ .none ∧ (l.edge = .both ∨ (l.edge = .rising ↔ level = .high)))
    let request : LineRequest := match l.role with
      | .rollHold => if level = l.active then .roll else .cut
      | .markGood => .mark .good
      | .markFlag => .mark .flag
      | _ => .toggle
    let after := fun l' : Line =>
      if taken then
        raise (.line n) { s with lines := { s.lines with
          lines := s.lines.lines.set n.val l', requests := s.lines.requests ++ [(n, request)] } }
      else { s with lines := { s.lines with lines := s.lines.lines.set n.val l' } }
    (l.filter = .zero → l.drive.getD l.idle ≠ level →
      ∃ t, exec (.rawLevelChange n (some level) time) s = .next t ∧
        Follows (after { l with drive := some level, filtered := level }) t) ∧
    (l.timer = some level →
      ∃ t, exec (.filterTimerExpiry n time) s = .next t ∧
        Follows (after { l with filtered := level, timer := none }) t)

/-- R152, R153 and R155: an edge taken on the SYNC_REF line while intake is RUNNING, with a frame start before
it, is a capture: its phase in 4096ths of a frame, held at 4095, its deviation, hit or miss, the runs and the
state, with SYNC raised where the state changes. Otherwise, in STOPPING too (log entry
40), the edge only raises LINEn. R154: while a line has
the role each frame start adds to the missing-edge count, and the eighth records a miss and clears it. Times
are whole nanoseconds on one clock (log entry 3). -/
def Obligations.SyncCaptured : Prop :=
  (∀ (s : State) (n : LineNo) (l : Line) (level : Level) (time : Nat) (g : Geometry), Calm s →
     s.lines.lines[n.val]? = some l → l.filtered ≠ level → l.role = .syncRef →
     l.edge = .both ∨ (l.edge = .rising ↔ level = .high) →
     l.filter = .zero → l.drive.getD l.idle ≠ level → s.intake.geometry = some g →
     let c := s.lines.sync
     let changed := s.lines.lines.set n.val { l with drive := some level, filtered := level }
     let r := rateOf g.code
     (∀ reference, s.intake.state = .running → c.reference = some reference → reference ≤ time →
       let phase := min ((time - reference) * r.num * 4096 / (r.den * 1000000000)) 4095
       let deviation := min phase (4096 - phase)
       let hit := deviation ≤ c.tolerance
       let hits := c.hitRun + 1
       let misses := c.missRun + 1
       let state : SyncState :=
         if hit then (if c.state = .none ∨ (c.state = .lost ∧ 4 ≤ hits) then .locked else c.state)
         else if c.state ≠ .lost ∧ 4 ≤ misses then .lost else c.state
       ∃ t, exec (.rawLevelChange n (some level) time) s = .next t ∧
         Follows
           (raiseIf (decide (state ≠ c.state)) .sync (raise (.line n)
             { s with lines := { s.lines with
               lines := changed
               sync := { c with
                 lastPhase := phase
                 last := some (deviation, if hit then .hit else .miss)
                 missing := 0
                 hitRun := if hit ∧ state = c.state then hits else 0
                 missRun := if ¬ hit ∧ state = c.state then misses else 0
                 state := state } } })) t) ∧
     (s.intake.state ≠ .running ∨ c.reference = none →
       ∃ t, exec (.rawLevelChange n (some level) time) s = .next t ∧
         Follows (raise (.line n) { s with lines := { s.lines with lines := changed } }) t)) ∧
  (∀ (s : State) (time : Nat) (l : Line), s.intake.state = .running → l ∈ s.lines.lines → l.role = .syncRef →
     s.lines.sync.missing ≤ 7 →
     let c := s.lines.sync
     let misses := c.missRun + 1
     let lost := c.state ≠ .lost ∧ 4 ≤ misses
     (c.missing < 7 →
       ∃ t, exec (.frameStart time) s = .next t
         ∧ t.lines.sync = { c with reference := some time, missing := c.missing + 1 }) ∧
     (c.missing = 7 →
       ∃ t, exec (.frameStart time) s = .next t
         ∧ (lost → t.isPending .sync = true)
         ∧ t.lines.sync = { c with
             reference := some time, missing := 0, hitRun := 0
             missRun := if lost then 0 else misses
             state := if lost then .lost else c.state }))

/-! ## The Directive Walker -/

/-- R160 and R161: a write to ENTRY starts a chain at 16 × v in IDLE, with the header fetched in one burst of
32 bytes; is held as the pending entry in WALKING, WAITING, HALTED and STOPPING; and is refused, with its
reason and ENTRY_REFUSED, where v is odd or 0, an entry is pending, or an engine reset is in progress. -/
def Obligations.EntryTaken : Prop :=
  (∀ (s : State) (v : BitVec 32), Calm s →
    let refused := fun reason : EntryRefusal =>
      raise .entryRefused { s with walker := { s.walker with lastRefusal := reason } }
    (v.toNat % 2 = 1 → ∃ t, exec (.entry v) s = .next t ∧ Follows (refused .misaligned) t) ∧
    (v = 0 → ∃ t, exec (.entry v) s = .next t ∧ Follows (refused .outOfRange) t) ∧
    (v.toNat % 2 = 0 → v ≠ 0 →
      (s.walker.state = .idle →
        ∃ t, exec (.entry v) s = .next t ∧
          Follows
            { s with
              walker := { s.walker with
                state := .walking, count := 1, block := some ⟨16 * v.toNat, [], [], .header, false⟩ }
              arbiter := { s.arbiter with
                bursts := { s.arbiter.bursts with walker := some ⟨.header, 16 * v.toNat, 32, []⟩ }
                attempts := { s.arbiter.attempts with walker := 0 } } } t) ∧
      (s.walker.state ≠ .idle → s.walker.pendingEntry = none →
        ∃ t, exec (.entry v) s = .next t ∧
          Follows { s with walker := { s.walker with pendingEntry := some (16 * v.toNat) } } t) ∧
      (s.walker.state ≠ .idle → s.walker.pendingEntry ≠ none →
        ∃ t, exec (.entry v) s = .next t ∧ Follows (refused .pendingFull) t))) ∧
  (∀ (s : State) (v : BitVec 32), s.walker.state = .resetting → v.toNat % 2 = 0 → v ≠ 0 →
    ∃ t, exec (.entry v) s = .next t ∧ t.walker.lastRefusal = .resetting ∧ t.isPending .entryRefused = true
      ∧ t.walker.pendingEntry = s.walker.pendingEntry
      ∧ FollowedBy (raise .entryRefused
        { s with walker := { s.walker with lastRefusal := .resetting } }) t)

/-- R162 and R163: the header decides, by its kind in byte 0 and its length in units of 32 bytes in byte 2. A kind that is none of the thirteen is refused BAD_KIND, a length that
the kind does not allow BAD_LENGTH; a longer block's body is fetched from offset 32, no burst crossing a
4096-byte boundary; a block of one unit is handed over, and ROLL and CUT are then in flight (R100, log entry
15). -/
def Obligations.HeaderDecides : Prop :=
  ∀ (s : State) (u : Burst) (b : Block) (bytes : List Byte), Calm s →
    OnPort .walker .header u s → s.walker.block = some b → bytes.length = 32 →
    let b' := { b with header := bytes }
    let ended := portEnded .walker u s
    let code := (bytes.getD 0 0).toNat
    let units := (bytes.getD 2 0).toNat
    let kinds : List DirectiveKind := [.setup, .tune, .lines, .loadTable, .grant, .relinquish, .startIntake,
      .stopIntake, .roll, .cut, .mark, .setTimecode, .wait]
    let lengths : List (List Nat) := [[2], [3], [2], [2], [3, 4, 5, 6, 7, 8, 9, 10], [2], [1], [1], [1], [1], [2],
      [2], [2]]
    let fits := 1 ≤ code ∧ code ≤ 13 ∧ units ∈ lengths.getD (code - 1) []
    b'.kind = (if code = 0 then none else kinds[code - 1]?) ∧ b'.units = units ∧
    (code = 0 ∨ 13 < code →
      ∃ t, exec (.headerFetchDone bytes) s = .next t ∧ Follows (answered .badKind 0 b' ended) t) ∧
    (1 ≤ code → code ≤ 13 → ¬ fits →
      ∃ t, exec (.headerFetchDone bytes) s = .next t ∧ Follows (answered .badLength 0 b' ended) t) ∧
    (fits → units ≠ 1 → b.body = [] →
      ∃ t, exec (.headerFetchDone bytes) s = .next t ∧
        Follows (walkerAsks ⟨.body, b.address + 32,
          min ((units - 1) * 32) (4096 - (b.address + 32) % 4096), []⟩ .body b' ended) t) ∧
    (units = 1 →
      (code = 7 ∨ code = 8 →
        ∃ t, exec (.headerFetchDone bytes) s = .next t ∧
          Follows { ended with walker := { s.walker with block := some { b' with stage := .handed } } } t) ∧
      (code = 9 → s.walker.state ≠ .stopping →
        ∃ t, exec (.headerFetchDone bytes) s = .next t ∧ Follows (inFlight .roll b' ended) t) ∧
      (code = 10 → s.walker.state ≠ .stopping →
        ∃ t, exec (.headerFetchDone bytes) s = .next t ∧ Follows (inFlight .cut b' ended) t) ∧
      (code = 9 ∨ code = 10 → s.walker.state = .stopping →
        ∃ t, exec (.headerFetchDone bytes) s = .next t ∧ Follows (answered .abandoned 0 b' ended) t))

/-- R162 and R163: each body burst adds its bytes; once all of the body has arrived the block is in its
owner's hand (log entry 15), and until then the next burst is asked for. -/
def Obligations.BodyArrives : Prop :=
  ∀ (s : State) (u : Burst) (b : Block) (bytes : List Byte), Calm s →
    OnPort .walker .body u s → s.walker.block = some b → bytes.length = u.length →
    let b' := { b with body := b.body ++ bytes }
    let ended := portEnded .walker u s
    let whole := (b.units - 1) * 32
    let next := b.address + 32 + b'.body.length
    (b'.body.length < whole →
      ∃ t, exec (.bodyFetchDone bytes) s = .next t ∧
        Follows (walkerAsks ⟨.body, next, min (whole - b'.body.length) (4096 - next % 4096), []⟩
          .body b' ended) t) ∧
    (whole ≤ b'.body.length → b.kind ≠ none → b.kind ≠ some .roll → b.kind ≠ some .cut →
      ∃ t, exec (.bodyFetchDone bytes) s = .next t ∧
        Follows { ended with walker := { s.walker with block := some { b' with stage := .handed } } } t)

/-- R165, R166, R168 and R171: when the outcome is written the block is complete, the last block and last host
tag are kept, and NOTICE_AFTER raises CHAIN. The walker goes HALTED for HALT_AFTER or a halt request; ends
the chain for LAST, for a refusal with STOP_ON_REFUSAL, or in STOPPING; and else takes the block at the next
address, or ends with CHAIN_LOOP at block count 1024 or CHAIN_FORM at a bad address (R167; the fault's frame:
log entry 12). No entry is pending. -/
def Obligations.OutcomeContinues : Prop :=
  ∀ (s : State) (u : Burst) (b : Block) (code detail : Nat) (frame : Frame), Calm s →
    OnPort .walker .outcome u s → s.walker.block = some b → b.stage = .outcome code detail frame →
    s.walker.pendingEntry = none →
    let base := portEnded .walker u s
    let told : State :=
      raiseIf (b.flag 2) .chain { base with walker := { s.walker with
        lastBlock := some (b.address, frame), lastTag := b.hostTag } }
    let final := b.flag 0 = true ∨ (7 ≤ code ∧ b.flag 3 = true)
    let halts := s.walker.state ≠ .stopping ∧ (b.flag 1 = true ∨ s.walker.haltRequest = true)
    let ended := fun v : State =>
      raise .chain { v with walker := { v.walker with
        state := .idle, block := none, lastBlock := none, continuation := none, count := 0
        haltRequest := false } }
    let next := b.nextAddress
    (halts →
      ∃ t, exec .outcomeWriteDone s = .next t ∧
        Follows { told with walker := { told.walker with
          state := .halted, haltRequest := false, block := none
          continuation := some (if final then .chainEnd else .next next) } } t) ∧
    (s.walker.state = .stopping ∨ (¬ halts ∧ final) →
      ∃ t, exec .outcomeWriteDone s = .next t ∧ Follows (ended told) t) ∧
    (s.walker.state ≠ .stopping → ¬ halts → ¬ final →
      (1024 ≤ s.walker.count →
        ∃ t, exec .outcomeWriteDone s = .next t ∧
          Follows (ended (reportFault
            ⟨.chainLoop, .directiveWalker, some b.address, some frame, none⟩ told)) t) ∧
      (s.walker.count < 1024 → 2 ^ 48 ≤ next ∨ next = 0 ∨ next % 32 ≠ 0 →
        ∃ t, exec .outcomeWriteDone s = .next t ∧
          Follows (ended (reportFault
            ⟨.chainForm, .directiveWalker, some b.address, some frame, none⟩ told)) t) ∧
      (s.walker.count < 1024 → next < 2 ^ 48 → next ≠ 0 → next % 32 = 0 →
        ∃ t, exec .outcomeWriteDone s = .next t ∧
          Follows { told with
            walker := { told.walker with
              state := .walking, count := s.walker.count + 1, block := some ⟨next, [], [], .header, false⟩ }
            arbiter := { told.arbiter with
              bursts := { told.arbiter.bursts with walker := some ⟨.header, next, 32, []⟩ }
              attempts := { told.arbiter.attempts with walker := 0 } } } t))

/-- R169: a HALT request sets the halt request in WALKING and WAITING, changes nothing else there, and has no
effect in any other walker state. Once set it stays while the walker is WALKING or WAITING, unless a burst of the
walker fails, which ends the chain (R167), so the directive in hand is carried to its end: no wait is shortened, a WAIT FRAMES with n left still takes n frame starts, and its last
completes it DONE. When the outcome of the block in hand has been written, whatever its flags, the walker goes
HALTED and holds the continuation, the request is clear and no block is in hand (R165). It makes no difference when
in the block's course the request came: one that comes after the walker has begun to take the next block halts it
after that block. -/
def Obligations.HaltRequested : Prop :=
  (∀ s : State,
    (s.walker.state = .walking ∨ s.walker.state = .waiting →
      exec .halt s = .next { s with walker := { s.walker with haltRequest := true } }) ∧
    (s.walker.state ≠ .walking → s.walker.state ≠ .waiting → exec .halt s = .next s)) ∧
  (∀ (c : Instr) (s t : State), exec c s = .next t → s.walker.haltRequest = true →
    s.arbiter.port ≠ some .walker ∨ (c ≠ .burstRetry ∧ c ≠ .burstError) →
    s.walker.state = .walking ∨ s.walker.state = .waiting →
    t.walker.state = .walking ∨ t.walker.state = .waiting → t.walker.haltRequest = true) ∧
  (∀ (s : State) (b : Block) (left time : Nat), Calm s → FliesAs (.frames left) b s →
    s.walker.state = .waiting → s.intake.state = .running → s.walker.haltRequest = true →
    (2 ≤ left → ∃ t, exec (.frameStart time) s = .next t ∧
      t.walker = { s.walker with block := some { b with stage := .inFlight (.frames (left - 1)) } }) ∧
    (left = 1 → ∃ t, exec (.frameStart time) s = .next t ∧
      t.walker = { s.walker with
        state := .walking
        block := some { b with stage := .outcome Verdict.done.code 0 (s.intake.counter + 1) } })) ∧
  (∀ (s : State) (u : Burst) (b : Block) (code detail : Nat) (frame : Frame),
    OnPort .walker .outcome u s → s.walker.state = .walking → s.walker.haltRequest = true →
    s.walker.block = some b → b.stage = .outcome code detail frame →
    ∃ t, exec .outcomeWriteDone s = .next t ∧
      t.walker = { s.walker with
        state := .halted
        block := none
        haltRequest := false
        continuation := some
          (if b.flag 0 ∨ (7 ≤ code ∧ b.flag 3) then .chainEnd else .next b.nextAddress)
        lastBlock := some (b.address, frame)
        lastTag := b.hostTag })

/-- R170: a RESUME request in HALTED acts on the continuation: the chain ends, or the block at the next address
is taken; in every other state it has no effect. R168: a chain that ends with an entry pending raises CHAIN,
and a new chain starts at that address with the halt request as it stands. R166 and R167: at block count 1024 the
chain ends with CHAIN_LOOP instead, and at a bad next address with CHAIN_FORM, with the last block's address and
completion frame (log entry 12). -/
def Obligations.ResumeActs : Prop :=
  (∀ s : State,
     (s.walker.state ≠ .halted → exec .resume s = .next s) ∧
     (Calm s → s.walker.state = .halted → s.walker.continuation = some .chainEnd →
       s.walker.pendingEntry = none →
       ∃ t, exec .resume s = .next t ∧
         Follows (raise .chain { s with walker := { s.walker with
           state := .idle, block := none, lastBlock := none, continuation := none, count := 0
           haltRequest := false } }) t) ∧
     (∀ a, Calm s → s.walker.state = .halted → s.walker.continuation = some (.next a) →
       s.walker.count < 1024 → a < 2 ^ 48 → a ≠ 0 → a % 32 = 0 →
       ∃ t, exec .resume s = .next t ∧
         Follows { s with
           walker := { s.walker with
             state := .walking, count := s.walker.count + 1, block := some ⟨a, [], [], .header, false⟩
             continuation := none }
           arbiter := { s.arbiter with
             bursts := { s.arbiter.bursts with walker := some ⟨.header, a, 32, []⟩ }
             attempts := { s.arbiter.attempts with walker := 0 } } } t)) ∧
  (∀ (s : State) (a : Nat), Calm s → s.walker.state = .halted → s.walker.continuation = some .chainEnd →
     s.walker.pendingEntry = some a →
     ∃ t, exec .resume s = .next t ∧
       Follows
         (raise .chain
           { s with
             walker := { s.walker with
               state := .walking, count := 1, block := some ⟨a, [], [], .header, false⟩
               lastBlock := none, continuation := none, pendingEntry := none }
             arbiter := { s.arbiter with
               bursts := { s.arbiter.bursts with walker := some ⟨.header, a, 32, []⟩ }
               attempts := { s.arbiter.attempts with walker := 0 } } }) t) ∧
  (∀ (s : State) (a : Nat) (last : Nat × Frame), Calm s → s.walker.state = .halted →
     s.walker.continuation = some (.next a) → s.walker.lastBlock = some last →
     let ended := fun (kind : FaultKind) =>
       let told := raise .chain (reportFault ⟨kind, .directiveWalker, some last.1, some last.2, none⟩ s)
       match s.walker.pendingEntry with
       | none => { told with walker := { s.walker with
           state := .idle, block := none, lastBlock := none, continuation := none, count := 0
           haltRequest := false } }
       | some p => { told with
           walker := { s.walker with
             state := .walking, count := 1, block := some ⟨p, [], [], .header, false⟩
             lastBlock := none, continuation := none, pendingEntry := none }
           arbiter := { s.arbiter with
             bursts := { s.arbiter.bursts with walker := some ⟨.header, p, 32, []⟩ }
             attempts := { s.arbiter.attempts with walker := 0 } } }
     (1024 ≤ s.walker.count → ∃ t, exec .resume s = .next t ∧ Follows (ended .chainLoop) t) ∧
     (s.walker.count < 1024 → 2 ^ 48 ≤ a ∨ a = 0 ∨ a % 32 ≠ 0 →
       ∃ t, exec .resume s = .next t ∧ Follows (ended .chainForm) t))

/-- R171: a STOP request discards the pending entry. In WAITING the directive in flight is withdrawn (R6, R32,
R100, R176) and abandoned, a RELINQUISH with the segments returned so far as detail and its close withdrawn
(R134); in WALKING the walker goes STOPPING and the block is carried on; in HALTED the chain ends; in IDLE,
STOPPING and RESETTING nothing happens. -/
def Obligations.StopRequested : Prop :=
  (∀ s : State,
     let stopping : State := { s with walker := { s.walker with state := .stopping, pendingEntry := none } }
     (s.walker.state = .idle ∨ s.walker.state = .stopping ∨ s.walker.state = .resetting →
       exec .stop s = .next s) ∧
     (s.walker.state = .walking → exec .stop s = .next stopping) ∧
     (Calm s → s.walker.state = .halted →
       ∃ t, exec .stop s = .next t ∧
         Follows (raise .chain { s with walker := { s.walker with
           state := .idle, block := none, lastBlock := none, continuation := none, count := 0
           haltRequest := false, pendingEntry := none } }) t) ∧
     (∀ f b, NoRelinquish s → s.walker.state = .waiting → FliesAs f b s →
       (f ≠ .stopIntake → f ≠ .relinquish .master → f ≠ .relinquish .proxy →
         ∃ t, exec .stop s = .next t ∧ Follows (answered .abandoned 0 b stopping) t) ∧
       (f = .stopIntake → s.intake.state = .stopping →
         ∃ t, exec .stop s = .next t ∧
           Follows (answered .abandoned 0 b
             { stopping with intake := { s.intake with state := .running } }) t))) ∧
  (∀ (s : State) (st : Stream) (b : Block) (r : Relinquish),
     s.walker.state = .waiting → FliesAs (.relinquish st) b s → (s.writer st).relinquish = some r →
     (s.writer (otherStream st)).relinquish = none →
     ∃ t, exec .stop s = .next t ∧ (t.writer st).relinquish = none
       ∧ t.walker = (answered .abandoned r.returned b
           { s with walker := { s.walker with state := .stopping, pendingEntry := none } }).walker
       ∧ (t.writer st).written = (s.writer st).written ∧ t.writers.grants = s.writers.grants
       ∧ KeepsIntake s t ∧ KeepsCoders s t ∧ KeepsRecords s t ∧ KeepsLog s t ∧ t.shared = s.shared)

/-! ## Directives -/

/-- R3, R40 and R183 in their order, and R4, R69, R78, R79, R96 and R112 where a SETUP is taken: its geometry
and rate, filter and page address are in force, the timecode label is made legal, the governor starts at a
full burst, L_pre is worked out, held entries and marks are gone, and the roll floor is the next frame. Check
6 of R3 never fails: every size that passes the checks before it is within the limit at every rate. -/
def Obligations.SetupDecides : Prop :=
  ∀ (s : State) (b : Block) (c : Fin 12), Calm s → InHand .setup b s →
    let w := b.field 32 2
    let h := b.field 34 2
    let f := b.u8 36
    let page := b.field 40 8
    let r := rateOf c
    let sized := (w % 32 = 0 ∧ 1280 ≤ w ∧ w ≤ 4096) ∧ (h % 8 = 0 ∧ 720 ≤ h ∧ h ≤ 2176)
      ∧ (2 ≤ f ∧ f ≤ 4) ∧ (w % f = 0 ∧ w / f % 16 = 0) ∧ (h % f = 0 ∧ h / f % 4 = 0)
    let placed := page ≠ 0 ∧ page < 2 ^ 48 ∧ page % 256 = 0
    let refused := fun v : Verdict => ∃ t, exec .setup s = .next t ∧ Follows (answered v 0 b s) t
    (s.intake.state ≠ .stopped → refused .busy) ∧
    (s.intake.state = .stopped → ¬ sized → refused .geometry) ∧
    (s.intake.state = .stopped → sized → 12 ≤ b.u8 37 → refused .rate) ∧
    (sized → w * h * r.num ≤ 1100000000 * r.den) ∧
    (s.intake.state = .stopped → sized → b.u8 37 = c → 2 ≤ b.u8 38 → refused .geometry) ∧
    (s.intake.state = .stopped → sized → b.u8 37 = c → b.u8 38 ≤ 1 → ¬ placed → refused .range) ∧
    (s.intake.state = .stopped → sized → b.u8 37 = c → b.u8 38 ≤ 1 → placed → MarksSound s →
      let drop := s.intake.timecode.drop && r.skip != 0
      let frames := if r.base ≤ s.intake.timecode.frames then 0 else s.intake.timecode.frames
      let skipped := drop = true ∧ frames < r.skip ∧ s.intake.timecode.seconds = 0
        ∧ s.intake.timecode.minutes % 10 ≠ 0
      let g := s.governor.inputs
      let nominal := g.rate * 125 * r.den / r.num
      let burst := nominal * (if g.depth = 32 ∧ g.mode ≠ .skip then 16 else g.depth)
      let kept := withoutHeld s
      ∃ t, exec .setup s = .next t ∧
        Follows
          (answered .done 0 b
            { kept with
              intake := { s.intake with
                geometry := some ⟨w, h, f, c⟩
                timecode := { s.intake.timecode with
                  drop := drop, frames := if skipped then r.skip else frames } }
              proxy := { s.proxy with filter := if b.u8 38 = 0 then .short else .long }
              page := { s.page with address := some page }
              governor := { s.governor with
                n := g.rate * 125 * r.den
                nominal := nominal
                burst := burst
                skipAt := nominal * g.threshold / 16
                credit := burst
                remainder := 0
                step := g.qstart }
              queue := { kept.queue with limit := (s.queue.depth * r.num + r.den - 1) / r.den }
              clips := { kept.clips with rollFloor := s.intake.counter } }) t)

/-- R29, R51, R78, R91, R113, R115, R136, R137, R153 and R173: a TUNE takes its 25 fields, each brought into
its range (the tolerance: log entry 38), and completes DONE, or DONE_ADJUSTED with the number of fields that the part changed. A changed
tally mode sets the lamp and ends a blink; a gap time of 0 holds the gap counts at 0; a depth that does not
fall leaves the held entries, one that falls ages the oldest out while there are more than L_pre, and one that
becomes 0 discards them (R79). Where pre-roll goes on, the roll floor goes up to the aging line and the intake
marks (R96). R64 to R67, under a rate in
force: a change of R or of the effective burst depth brings new quantities, clamps C into −B to B and clears
r; a change of t alone brings a new T; a change of Qmin or Qmax clamps Q; in OFF C is B and Q is Qstart. -/
def Obligations.TuneTaken : Prop :=
  (∀ (s : State) (b : Block), Calm s → InHand .tune b s →
     let between := fun lo hi given : Nat => max lo (min given hi)
     let cap := if b.field 34 2 = 0 then 0 else max (b.field 34 2) 64
     let depth := if b.u8 41 < 8 then 4 else if b.u8 41 < 16 then 8 else if b.u8 41 < 32 then 16 else 32
     let qmax := between 1 63 (b.u8 46)
     let qmin := min (between 1 63 (b.u8 45)) qmax
     let qstart := between qmin qmax (between 1 63 (b.u8 47))
     let seconds := min (b.u8 48) 30
     let tally := min (b.u8 50) 2
     let blink := if b.field 52 2 = 0 then 0 else between 50 500 (b.field 52 2)
     let offsets := [b.i8 36, b.i8 37, b.i8 38, b.i8 39].map fun o : Int => max (-8) (min o 8)
     let taken : List Nat :=
       [between 1 63 (b.u8 32), cap, min (b.u8 40) 2, between 500 40000 (b.field 42 2), depth,
         between 4 64 (b.u8 44), qmin, qmax, qstart, seconds, between 50 95 (b.u8 49), tally, blink,
         min (b.u8 54) 47, min (b.u8 55) 15, min (b.field 56 2) 1000, min (b.u8 58) 1, min (b.u8 59) 1,
         min (b.u8 60) 1, min (b.u8 61) 1, min (b.field 62 2) 2048]
     let given : List Nat :=
       [b.u8 32, b.field 34 2, b.u8 40, b.field 42 2, b.u8 41, b.u8 44, b.u8 45, b.u8 46, b.u8 47, b.u8 48,
         b.u8 49, b.u8 50, b.field 52 2, b.u8 54, b.u8 55, b.field 56 2, b.u8 58, b.u8 59, b.u8 60, b.u8 61,
         b.field 62 2]
     let adjusted := ((taken.zip given).filter fun p => p.1 != p.2).length
       + ((offsets.zip [b.i8 36, b.i8 37, b.i8 38, b.i8 39]).filter fun p => p.1 != p.2).length
     let mode := [TallyMode.auto, .forceOn, .forceOff].getD tally .auto
     (∃ t, exec .tune s = .next t ∧
       t.walker = (answered (if adjusted = 0 then .done else .doneAdjusted) adjusted b s).walker ∧
       KeepsIntake s t ∧ t.proxy = s.proxy ∧ t.clips.table = s.clips.table ∧ KeepsLog s t
         ∧ t.shared = s.shared ∧ RaisesOnly (.high .master :: .high .proxy :: followUps) s t) ∧
     (∃ t, exec .tune s = .next t ∧
       t.master = { s.master with settings := ⟨between 1 63 (b.u8 32), cap, offsets⟩ } ∧
       t.governor.inputs = ⟨[GovernorMode.off, .degrade, .skip].getD (min (b.u8 40) 2) .off,
         between 500 40000 (b.field 42 2), depth, between 4 64 (b.u8 44), qmin, qmax, qstart⟩) ∧
     (∃ t, exec .tune s = .next t ∧
       t.queue.depth = seconds ∧ t.queue.highMark = between 50 95 (b.u8 49) ∧
       (∀ g, s.intake.geometry = some g →
         t.queue.limit = (seconds * (rateOf g.code).num + (rateOf g.code).den - 1) / (rateOf g.code).den) ∧
       (s.queue.depth ≤ seconds → ∀ st, t.entries st = s.entries st) ∧
       (seconds = 0 → s.queue.depth ≠ 0 → t.clips.held = [] ∧ t.queue.agingLine = s.intake.counter ∧
         ∀ st, t.entries st = (s.entries st).filter fun e => e.clip.isSome) ∧
       (let upTo := fun (m : Option Frame) (x : Frame) => match m with
          | none => x
          | some y => raiseTo y x
        t.clips.rollFloor =
          if seconds ≠ 0 ∧ s.queue.depth = 0 ∧ s.intake.geometry ≠ none then
            upTo s.queue.intakeMarks.proxy (upTo s.queue.intakeMarks.master
              (raiseTo s.queue.agingLine s.clips.rollFloor))
          else s.clips.rollFloor)) ∧
     (∀ g, s.intake.geometry = some g →
       let limit := (seconds * (rateOf g.code).num + (rateOf g.code).den - 1) / (rateOf g.code).den
       (seconds ≠ 0 → heldFrames (s.entries .master) ≤ limit →
         ∃ t, exec .tune s = .next t ∧ t.queue.agingLine = s.queue.agingLine ∧ t.clips.held = s.clips.held
           ∧ ∀ st, t.entries st = s.entries st) ∧
       (∀ f : Frame, seconds ≠ 0 → seconds < s.queue.depth → limit < (s.entries .master).length →
         (s.entries .master).length < 2 ^ 31 →
         (∀ i < (s.entries .master).length, ∀ e ∈ (s.entries .master)[i]?,
           e.clip = none ∧ e.count = 1 ∧ e.frame = f + BitVec.ofNat 32 i) →
         (∀ e ∈ s.entries .proxy, e.clip ≠ none) →
         let aged := (s.entries .master).length - limit
         ∃ t, exec .tune s = .next t ∧ t.entries .master = (s.entries .master).drop aged
           ∧ t.entries .proxy = s.entries .proxy ∧ t.queue.agingLine = f + BitVec.ofNat 32 aged
           ∧ t.clips.held = s.clips.held.filter fun m =>
             (List.range aged).all fun i => !isBelow m.frame (f + BitVec.ofNat 32 (i + 1)))) ∧
     (∃ t, exec .tune s = .next t ∧
       (t.clips.tallyMode = mode ∧ t.clips.blinkTime = blink) ∧
       (mode = s.clips.tallyMode → t.clips.lamp = s.clips.lamp ∧ t.clips.blinkTimer = s.clips.blinkTimer) ∧
       (mode ≠ s.clips.tallyMode → t.clips.blinkTimer = none ∧
         t.clips.lamp = (match mode with
           | .auto => if s.recording = none then .dark else .lit
           | .forceOn => .lit
           | .forceOff => .dark))) ∧
     (∃ t, exec .tune s = .next t ∧
       (t.writers.watermark = min (b.u8 54) 47 ∧ t.writers.retry = min (b.u8 55) 15
         ∧ t.writers.gapTime = min (b.field 56 2) 1000) ∧
       (∀ st, (t.writer st).gapTimer = (s.writer st).gapTimer ∧
         (t.writer st).gapCount = if b.field 56 2 = 0 then 0 else (s.writer st).gapCount) ∧
       t.arbiter.high = ⟨b.u8 58 != 0, b.u8 59 != 0, b.u8 60 != 0, b.u8 61 != 0⟩ ∧
       t.lines = { s.lines with sync := { s.lines.sync with tolerance := min (b.field 62 2) 2048 } })) ∧
  (∀ (s : State) (b : Block) (g : Geometry), InHand .tune b s → s.intake.geometry = some g →
     ∃ t, exec .tune s = .next t ∧
       (let old := s.governor
       let new := t.governor
       let r := rateOf g.code
       let effective := fun i : GovernorInputs => if i.depth = 32 ∧ i.mode ≠ .skip then 16 else i.depth
       let changed := new.inputs.rate ≠ old.inputs.rate ∨ effective new.inputs ≠ effective old.inputs
       let within := fun lo hi c : Int => max lo (min c hi)
       (changed → new.n = new.inputs.rate * 125 * r.den ∧ new.nominal = new.n / r.num
         ∧ new.burst = new.nominal * effective new.inputs
         ∧ new.skipAt = new.nominal * new.inputs.threshold / 16 ∧ new.remainder = 0
         ∧ (new.inputs.mode ≠ .off → new.credit = within (-new.burst) new.burst old.credit)) ∧
       (¬ changed → new.n = old.n ∧ new.nominal = old.nominal ∧ new.burst = old.burst
         ∧ new.remainder = old.remainder ∧ (new.inputs.mode ≠ .off → new.credit = old.credit)
         ∧ new.skipAt = (if new.inputs.threshold = old.inputs.threshold then old.skipAt
             else old.nominal * new.inputs.threshold / 16)) ∧
       (new.inputs.mode = .off → new.credit = new.burst ∧ new.step = new.inputs.qstart) ∧
       (new.inputs.mode ≠ .off → new.step =
         if new.inputs.qmin = old.inputs.qmin ∧ new.inputs.qmax = old.inputs.qmax then old.step
         else max new.inputs.qmin (min old.step new.inputs.qmax)) ∧
       (new.openPicture = old.openPicture ∧ new.overruns = old.overruns ∧ new.repeats = old.repeats)))

/-- R145 and R146: a LINES with a code out of range on any line, or with SYNC_REF on two, is refused RANGE.
Otherwise all six lines take their settings, no filter timer runs, and each filtered level is the raw one
under the new pull; the sync capture is cleared where SYNC_REF leaves its line or comes to one. What follows the
outcome at once, in `Follows`, is in the order of log entry 13, the model's choice. -/
def Obligations.LinesDecide : Prop :=
  ∀ (s : State) (b : Block), Calm s → InHand .lines b s → s.lines.lines.length = 6 →
    let code := fun m k => b.u8 (32 + 5 * m + k)
    let ranged := ∀ m ∈ List.range 6,
      code m 0 ≤ 5 ∧ code m 1 ≤ 2 ∧ code m 2 ≤ 1 ∧ code m 3 ≤ 1 ∧ code m 4 ≤ 4
    let refs := (List.range 6).filter fun m => code m 0 == 5
    let level := fun k => if k = 0 then Level.low else .high
    let before := s.lines.lines.findIdx? fun l => l.role == .syncRef
    let sync := if before = refs.head? then s.lines.sync
      else { s.lines.sync with state := .none, hitRun := 0, missRun := 0, missing := 0 }
    (¬ ranged ∨ 2 ≤ refs.length →
      ∃ t, exec .lines s = .next t ∧ Follows (answered .range 0 b s) t) ∧
    (ranged → refs.length ≤ 1 →
      ∃ t, exec .lines s = .next t ∧
        Follows
          (answered .done 0 b
            (raiseIf (decide (sync.state ≠ s.lines.sync.state)) .sync
              { s with lines := { s.lines with
                sync := sync
                lines := s.lines.lines.mapIdx fun m l =>
                  { role := [Role.none, .rollToggle, .rollHold, .markGood, .markFlag, .syncRef].getD
                      (code m 0) .none
                    edge := [Edge.falling, .rising, .both].getD (code m 1) .falling
                    active := level (code m 2)
                    idle := level (code m 3)
                    filter := [FilterTime.zero, .quarter, .one, .four, .sixteen].getD (code m 4) .zero
                    drive := l.drive
                    filtered := l.drive.getD (level (code m 3))
                    timer := none } } })) t)

/-- R31, R32, R47, R48 and R174: a LOAD_TABLE out of range is refused; one whose table is INITIALISING waits,
or is abandoned in STOPPING; else its source is read, no burst crossing a 4096-byte boundary. When the last
byte has come, an activity load writes the classes, each at most 3, and a curve load the 33 points, each at
most 4095 and none below the one before; the detail counts what was changed. -/
def Obligations.TableLoaded : Prop :=
  ∀ (s : State) (b : Block), Calm s →
    let f := b.loadFields
    let fits := f.source < 2 ^ 48 ∧
      (f.table = 0 ∧ f.start ≤ 63 ∧ 1 ≤ f.count ∧ f.count ≤ 64 ∧ f.start + f.count ≤ 64
        ∨ f.table = 1 ∧ f.start = 0 ∧ f.count = 33)
    let ready := if f.table = 0 then s.master.tableState = .ready else s.proxy.curveState = .ready
    let whole := if f.table = 0 then f.count else 66
    let read := fun got : List Byte => (⟨.table, f.source + got.length,
      min (whole - got.length) (4096 - (f.source + got.length) % 4096), []⟩ : Burst)
    let walks := fun u : State => { u with walker := { u.walker with
      state := if u.walker.state = .stopping then .stopping else .walking } }
    let verdict := fun n : Nat => if n = 0 then Verdict.done else .doneAdjusted
    (InHand .loadTable b s →
      (¬ fits → ∃ t, exec .loadTable s = .next t ∧ Follows (answered .range 0 b s) t) ∧
      (fits → ¬ ready → s.walker.state = .stopping →
        ∃ t, exec .loadTable s = .next t ∧ Follows (answered .abandoned 0 b s) t) ∧
      (fits → ¬ ready → s.walker.state ≠ .stopping →
        ∃ t, exec .loadTable s = .next t ∧ Follows (inFlight .loadTable b s) t) ∧
      (fits → ready → ∃ t, exec .loadTable s = .next t ∧
        Follows (walkerAsks (read []) (.reading []) b (walks s)) t)) ∧
    (∀ (u : Burst) (before bytes : List Byte), OnPort .walker .table u s → s.walker.block = some b →
      b.stage = .reading before → bytes.length = u.length →
      let got := before ++ bytes
      let ended := portEnded .walker u s
      let classes := got.map fun v => min v.toNat 3
      let values := (List.range 33).map fun k => (got.getD (2 * k) 0).toNat + 256 * (got.getD (2 * k + 1) 0).toNat
      let points := (List.range 33).map fun k => ((values.take (k + 1)).map fun v => min v 4095).foldl max 0
      let changedClasses := (got.filter fun v => decide (3 < v.toNat)).length
      let changedPoints := ((points.zip values).filter fun p => p.1 != p.2).length
      (got.length < whole →
        ∃ t, exec (.tableSourceReadDone bytes) s = .next t ∧
          Follows (walkerAsks (read got) (.reading got) b (walks ended)) t) ∧
      (whole ≤ got.length → f.table = 0 →
        ∃ t, exec (.tableSourceReadDone bytes) s = .next t ∧
          Follows (answered (verdict changedClasses) changedClasses b
            { ended with master := { s.master with
              table := s.master.table.take f.start ++ classes
                ++ s.master.table.drop (f.start + classes.length) } }) t) ∧
      (f.table = 1 → got.length = 66 →
        ∃ t, exec (.tableSourceReadDone bytes) s = .next t ∧
          Follows (answered (verdict changedPoints) changedPoints b
            { ended with proxy := { s.proxy with curve := points } }) t))

/-- R119, R120 and R121: a GRANT with a bad stream or slot count is refused RANGE, and one whose block has a
grant record BUSY. Otherwise its slots are taken or refused in slot order, a form or address or a duplicate
before a full list; the segments taken go to the back of the list, whose below-watermark flag follows (R124), and the
record is made. Each refused slot's
result brings the next one, the last brings the returned count as it stands (all the slots where every one was
refused, log entry 16), and the returned count brings the outcome: DONE, or PARTIAL if a slot was refused,
with the number of slots taken. -/
def Obligations.GrantGraded : Prop :=
  (∀ (s : State) (b : Block), Calm s → InHand .grant b s →
     let n := b.u8 33
     (1 < b.u8 32 ∨ n = 0 ∨ 8 < n ∨ n + 2 ≠ b.units →
       ∃ t, exec .grant s = .next t ∧ Follows (answered .range 0 b s) t) ∧
     (∀ st, b.u8 32 = (match st with | .master => 0 | .proxy => 1) → 1 ≤ n → n ≤ 8 → n + 2 = b.units →
       (b.address ∈ s.writers.grants.map GrantRecord.block →
         ∃ t, exec .grant s = .next t ∧ Follows (answered .busy 0 b s) t) ∧
       (b.address ∉ s.writers.grants.map GrantRecord.block →
         let w := s.writer st
         let graded := (List.range n).foldl (fun (acc : List Segment × List (Nat × Reason)) i =>
           let a := b.field (64 + 32 * i) 8
           let l := b.field (72 + 32 * i) 4
           let formed := a % 4096 = 0 ∧ l % 4096 = 0 ∧ 65536 ≤ l ∧ l ≤ 16777216 ∧ a + l ≤ 2 ^ 48
           if ¬ formed then (acc.1, acc.2 ++ [(i, .refusedForm)])
           else if a ∈ s.heldStarts ∨ a ∈ acc.1.map Segment.start then
             (acc.1, acc.2 ++ [(i, .refusedDuplicate)])
           else if 48 ≤ w.segments.length + acc.1.length then (acc.1, acc.2 ++ [(i, .refusedFull)])
           else (acc.1 ++ [⟨a, l, b.address, i⟩], acc.2)) ([], [])
         let refused := graded.2.length
         let below := decide
           (s.writers.watermark ≠ 0 ∧ w.segments.length + graded.1.length < s.writers.watermark)
         let burst : Burst := match graded.2 with
           | (i, reason) :: _ => ⟨.refusedSlot, b.address + 76 + 32 * i, 15,
               List.replicate 12 0 ++ [BitVec.ofNat 8 reason.code, 0, 1]⟩
           | [] => ⟨.walkerCount, b.address + 34, 1, [0]⟩
         let stage : Stage := if refused = 0 then .count 0 else .slots refused graded.2
         ∃ t, exec .grant s = .next t ∧
           Follows
             (walkerAsks burst stage { b with granted := true }
               (raiseIf (below && !w.belowWatermark) (.low st)
                 { s with writers := { s.writers with
                   streams := s.writers.streams.set
                     { w with segments := w.segments ++ graded.1, belowWatermark := below } st
                   grants := if refused = n then s.writers.grants
                     else s.writers.grants ++ [⟨b.address, st, n, refused⟩] } })) t))) ∧
  (∀ (s : State) (u : Burst) (b : Block), Calm s → s.walker.block = some b →
     let ended := portEnded .walker u s
     let count := ((s.writers.grants.find? fun g => g.block == b.address).map GrantRecord.returned).getD
       (b.u8 33)
     (∀ (refused : Nat) (left : List (Nat × Reason)), OnPort .walker .refusedSlot u s →
       b.stage = .slots refused left →
       (∀ i reason, left.tail.head? = some (i, reason) →
         ∃ t, exec .refusedSlotWriteDone s = .next t ∧
           Follows (walkerAsks ⟨.refusedSlot, b.address + 76 + 32 * i, 15,
             List.replicate 12 0 ++ [BitVec.ofNat 8 reason.code, 0, 1]⟩ (.slots refused left.tail) b ended) t) ∧
       (left.tail = [] →
         ∃ t, exec .refusedSlotWriteDone s = .next t ∧
           Follows (walkerAsks ⟨.walkerCount, b.address + 34, 1, [BitVec.ofNat 8 count]⟩
             (.count refused) b ended) t)) ∧
     (∀ refused : Nat, OnPort .walker .walkerCount u s → b.stage = .count refused →
       ∃ t, exec .walkerReturnedCountDone s = .next t ∧
         Follows (answered (if refused = 0 then .done else .partly) (b.u8 33 - refused) b ended) t))

/-- R132 and R133: a RELINQUISH with a bad stream is refused RANGE. With an empty list and no segment to close
it completes DONE; else the list's first segment goes back first, RELINQUISHED, or, with close-current, the
current one: at once if no entry is mid-write in it and no burst is in progress, else when the burst or the
entry ends. While STOPPING it is abandoned (R171, log entry 17). When a segment that it gives back is returned
(R130), the next leaves the list; when the list is empty it completes DONE with the number returned. Where the
unused segment of an abandoned RELINQUISH is still to be returned, the next waits for it, so that no more than
two results of the stream wait (R130; log entry 33). -/
def Obligations.RelinquishTaken : Prop :=
  (∀ (s : State) (b : Block) (st : Stream), Calm s → InHand .relinquish b s →
     let w := s.writer st
     let closes := b.u8 33 ≠ 0 ∧ w.current ≠ none
     let holds := fun (r : Relinquish) (segments : List Segment) (t : State) =>
       t.walker = (inFlight (.relinquish st) b s).walker ∧ (t.writer st).relinquish = some r
         ∧ (t.writer st).segments = segments
     let keeps := fun t : State => KeepsIntake s t ∧ KeepsCoders s t ∧ KeepsRecords s t ∧ KeepsLog s t
       ∧ t.shared = s.shared ∧ t.lines = s.lines ∧ t.writers.grants = s.writers.grants
       ∧ RaisesOnly followUps s t
     let mid := fun c : Current => w.written ≠ 0 ∧ c.position ≠ 0
     let busy := s.arbiter.port = some (writerRequester st)
     (1 < b.u8 32 → ∃ t, exec .relinquish s = .next t ∧ Follows (answered .range 0 b s) t) ∧
     (b.u8 32 = (match st with | .master => 0 | .proxy => 1) →
       (s.walker.state = .stopping →
         ∃ t, exec .relinquish s = .next t ∧ Follows (answered .abandoned 0 b s) t) ∧
       (s.walker.state ≠ .stopping → ¬ closes → w.segments = [] →
         (∀ r ∈ s.page.results, r.stream = st → r.counted = false) →
         ∃ t, exec .relinquish s = .next t ∧ t.walker = (answered .done 0 b s).walker
           ∧ (t.writer st).relinquish = none ∧ (t.writer st).current = w.current ∧ keeps t
           ∧ t.page.results = s.page.results) ∧
       (∀ g rest, s.walker.state ≠ .stopping → ¬ closes → w.segments = g :: rest →
         (∀ r ∈ s.page.results, r.stream = st → r.counted = false) →
         ((∀ r ∈ s.page.results, r.stream = st → r.own = true) →
           ∃ t, exec .relinquish s = .next t ∧ holds ⟨none, 0⟩ rest t ∧ keeps t
             ∧ (t.writer st).current = w.current
             ∧ t.page.results = s.page.results ++ [⟨st, g, 0, 0, 0, 0, false, .relinquished, false, true⟩]) ∧
         (∀ r ∈ s.page.results, r.stream = st → r.own = false →
           ∃ t, exec .relinquish s = .next t ∧ holds ⟨none, 0⟩ w.segments t ∧ keeps t
             ∧ (t.writer st).current = w.current ∧ t.page.results = s.page.results)) ∧
       (∀ c, s.walker.state ≠ .stopping → b.u8 33 ≠ 0 → w.current = some c →
         (mid c ∨ busy →
           ∃ t, exec .relinquish s = .next t
             ∧ holds ⟨some (if mid c then .afterEntry else .afterBurst), 0⟩ w.segments t ∧ keeps t
             ∧ (t.writer st).current = some c ∧ t.page.results = s.page.results) ∧
         (¬ mid c → ¬ busy →
           ∃ t, exec .relinquish s = .next t ∧ holds ⟨none, 0⟩ w.segments t ∧ keeps t
             ∧ (t.writer st).current = none
             ∧ t.page.results = s.page.results ++ [⟨st, c.segment, c.position, c.clip.getD 0, c.first.getD 0,
               min c.begun 65535, c.continued, .relinquished, true, true⟩])))) ∧
  (∀ (s : State) (st : Stream) (b : Block) (u : Burst) (q : Relinquish) (r : Result) (rest : List Result),
     FliesAs (.relinquish st) b s → s.walker.state = .waiting →
     (s.writer st).relinquish = some q → q.close = none → (s.writer (otherStream st)).relinquish = none →
     s.arbiter.port = some .page → s.arbiter.bursts.page = some u → u.kind = .resultCount →
     s.page.results = r :: rest → r.stream = st → r.counted = true →
     (∀ x ∈ rest, x.stream = st → x.counted = false) →
     ((s.writer st).segments = [] →
       ∃ t, exec .resultCountBurstDone s = .next t ∧ t.walker = (answered .done (q.returned + 1) b s).walker
         ∧ (t.writer st).relinquish = none ∧ t.isPending (.returned st) = true ∧ t.page.results = rest
         ∧ KeepsIntake s t ∧ KeepsCoders s t ∧ KeepsRecords s t ∧ KeepsLog s t) ∧
     (∀ g more, (s.writer st).segments = g :: more → (∀ x ∈ rest, x.stream = st → x.own = true) →
       ∃ t, exec .resultCountBurstDone s = .next t ∧ t.walker = s.walker
         ∧ (t.writer st).relinquish = some ⟨none, q.returned + 1⟩ ∧ t.isPending (.returned st) = true
         ∧ (t.writer st).segments = more
         ∧ t.page.results = rest ++ [⟨st, g, 0, 0, 0, 0, false, .relinquished, false, true⟩]
         ∧ KeepsIntake s t ∧ KeepsCoders s t ∧ KeepsRecords s t ∧ KeepsLog s t))

/-- R5, R6, R69, R79, R96 and R112: START_INTAKE in STOPPED goes RUNNING with a full burst of credit, no held
entries or marks, and the roll floor at the next frame, or is refused NO_SETUP; RUNNING it is ALREADY.
STOP_INTAKE is ALREADY in STOPPED, refused BUSY while a clip records, and else stops at once if drained, or
waits. INTAKE_DRAINED then stops intake and completes it (log entry 24). The sync reference goes with the stop
(R152). -/
def Obligations.IntakeStartsStops : Prop :=
  ∀ (s : State) (b : Block), Calm s →
    let drained := s.intake.arrival = none ∧ (∀ x ∈ s.slots, x.state = .free) ∧ s.inputs = ⟨[], []⟩
      ∧ s.master.picture = none ∧ s.proxy.picture = none
    let stopped : State :=
      { s with
        intake := { s.intake with state := .stopped }
        lines := { s.lines with sync := { s.lines.sync with reference := none, missing := 0 } } }
    (InHand .startIntake b s →
      (s.intake.state = .running →
        ∃ t, exec .startIntake s = .next t ∧ Follows (answered .already 0 b s) t) ∧
      (s.intake.state = .stopped → s.intake.geometry = none →
        ∃ t, exec .startIntake s = .next t ∧ Follows (answered .noSetup 0 b s) t) ∧
      (s.intake.state = .stopped → s.intake.geometry ≠ none → MarksSound s →
        ∃ t, exec .startIntake s = .next t ∧
          Follows
            (answered .done 0 b
              { withoutHeld s with
                intake := { s.intake with state := .running }
                governor := { s.governor with
                  credit := s.governor.burst, remainder := 0, step := s.governor.inputs.qstart }
                clips := { s.clips with held := [], rollFloor := s.intake.counter } }) t)) ∧
    (InHand .stopIntake b s →
      (s.intake.state = .stopped →
        ∃ t, exec .stopIntake s = .next t ∧ Follows (answered .already 0 b s) t) ∧
      (s.intake.state = .running → s.recording ≠ none →
        ∃ t, exec .stopIntake s = .next t ∧ Follows (answered .busy 0 b s) t) ∧
      (s.intake.state = .running → s.recording = none → drained →
        ∃ t, exec .stopIntake s = .next t ∧ Follows (answered .done 0 b stopped) t) ∧
      (s.intake.state = .running → s.recording = none → ¬ drained → s.walker.state ≠ .stopping →
        ∃ t, exec .stopIntake s = .next t ∧
          Follows (inFlight .stopIntake b { s with intake := { s.intake with state := .stopping } }) t) ∧
      (s.intake.state = .running → s.recording = none → ¬ drained → s.walker.state = .stopping →
        ∃ t, exec .stopIntake s = .next t ∧ Follows (answered .abandoned 0 b s) t)) ∧
    (FliesAs .stopIntake b s → s.intake.state = .stopping → drained →
      ∃ t, exec .intakeDrained s = .next t ∧ Follows (answered .done 0 b stopped) t)

/-- R18: a SET_TIMECODE is refused NO_SETUP without a rate, and RANGE where a field is out of range or
drop-frame is not allowed. A skipped label is raised to the first legal one and answers DONE_ADJUSTED with
detail 1; any other label is taken as given. What follows the outcome at once, in `Follows`, is in the order of log
entry 13, the model's choice. -/
def Obligations.TimecodeSet : Prop :=
  ∀ (s : State) (b : Block), Calm s → InHand .setTimecode b s →
    let put := fun (frames : Nat) (u : State) =>
      { u with intake := { u.intake with
        timecode := ⟨b.u8 32, b.u8 33, b.u8 34, frames, b.u8 36 != 0⟩ } }
    (s.intake.geometry = none →
      ∃ t, exec .setTimecode s = .next t ∧ Follows (answered .noSetup 0 b s) t) ∧
    (∀ g, s.intake.geometry = some g →
      let r := rateOf g.code
      let ranged := b.u8 32 ≤ 23 ∧ b.u8 33 ≤ 59 ∧ b.u8 34 ≤ 59 ∧ b.u8 35 < r.base
        ∧ (b.u8 36 = 0 ∨ r.skip ≠ 0)
      let skipped := b.u8 36 ≠ 0 ∧ b.u8 35 < r.skip ∧ b.u8 34 = 0 ∧ b.u8 33 % 10 ≠ 0
      (¬ ranged → ∃ t, exec .setTimecode s = .next t ∧ Follows (answered .range 0 b s) t) ∧
      (ranged → skipped →
        ∃ t, exec .setTimecode s = .next t ∧ Follows (answered .doneAdjusted 1 b (put r.skip s)) t) ∧
      (ranged → ¬ skipped →
        ∃ t, exec .setTimecode s = .next t ∧ Follows (answered .done 0 b (put (b.u8 35) s)) t))

/-- R176: a WAIT with a bad condition, or for no frames, is refused RANGE. A WAIT for frames goes in flight,
and each frame start counts toward it, the last completing it DONE. A WAIT for DRAINED completes at once where
no clip is in the table and no committed entry in a queue, and else goes in flight; in STOPPING a WAIT that
would go in flight is abandoned (R171). One for DRAINED that is in flight completes DONE at the event that makes
the condition hold: the last clip is retired as its second trailer leaves its queue (R108), or is cancelled by a
line's CUT or toggle (R102); where another clip or a committed entry is left, it stays in flight. -/
def Obligations.WaitTaken : Prop :=
  (∀ (s : State) (b : Block), Calm s →
    let n := b.field 34 2
    let drained := s.clipList = [] ∧ (∀ e ∈ s.entries .master, e.clip = none)
      ∧ (∀ e ∈ s.entries .proxy, e.clip = none)
    let abandons := s.walker.state = .stopping
    (InHand .wait b s →
      (1 < b.u8 32 ∨ b.u8 32 = 0 ∧ n = 0 →
        ∃ t, exec .wait s = .next t ∧ Follows (answered .range 0 b s) t) ∧
      (b.u8 32 = 0 → n ≠ 0 → ¬ abandons →
        ∃ t, exec .wait s = .next t ∧ Follows (inFlight (.frames n) b s) t) ∧
      (b.u8 32 = 1 → drained → ∃ t, exec .wait s = .next t ∧ Follows (answered .done 0 b s) t) ∧
      (b.u8 32 = 1 → ¬ drained → ¬ abandons →
        ∃ t, exec .wait s = .next t ∧ t.walker = (inFlight .drained b s).walker
          ∧ FollowedBy (inFlight .drained b s) t) ∧
      (abandons → b.u8 32 = 0 ∧ n ≠ 0 ∨ b.u8 32 = 1 ∧ ¬ drained →
        ∃ t, exec .wait s = .next t ∧ Follows (answered .abandoned 0 b s) t)) ∧
    (∀ (left time : Nat), FliesAs (.frames left) b s → s.walker.state = .waiting →
      s.intake.state = .running →
      (2 ≤ left → ∃ t, exec (.frameStart time) s = .next t
        ∧ t.walker = (inFlight (.frames (left - 1)) b s).walker) ∧
      (left = 1 → ∃ t, exec (.frameStart time) s = .next t ∧ t.intake.counter = s.intake.counter + 1
        ∧ t.walker = (answered .done 0 b
          { s with intake := { s.intake with counter := s.intake.counter + 1 } }).walker))) ∧
  (∀ (s : State) (b : Block) (c : Clip), NoRelinquish s → s.walker.state = .waiting → FliesAs .drained b s →
    (∀ (st : Stream) (u : Burst) (e : Entry) (k : Current), OnPort (writerRequester st) .entry u s →
      (s.entries st).head? = some e → e.kind = .trailer → (s.writer st).current = some k →
      e.size ≤ (s.writer st).written + u.length → e.clip = some c.number → c ∈ s.clipList →
      (∀ d ∈ s.clipList, d.number = c.number → d = c) →
      let drained := c.written.get (otherStream st) = true ∧ (∀ d ∈ s.clipList, d = c)
        ∧ (∀ y ∈ (s.entries st).tail, y.clip = none) ∧ ∀ y ∈ s.entries (otherStream st), y.clip = none
      (drained → ∃ t, exec .writerBurstDone s = .next t ∧ t.clipList = [] ∧ t.isPending .clip = true
        ∧ t.walker = (answered .done 0 b s).walker
        ∧ t.arbiter.bursts.walker = (answered .done 0 b s).arbiter.bursts.walker
        ∧ t.arbiter.attempts.walker = 0) ∧
      (¬ drained → ∃ t, exec .writerBurstDone s = .next t ∧ t.walker = s.walker
        ∧ t.arbiter.bursts.walker = s.arbiter.bursts.walker)) ∧
    (∀ (n : LineNo) (toggles : Bool), firstRequest n s.lines.requests = some (if toggles then .toggle else .cut) →
      Records c s → s.clips.recentStart.all (fun x => isBelow x c.first) = true →
      let command := if toggles then Instr.toggle n else .cut (.line n)
      let cancelled : State :=
        raise .clip { s with
          lines := { s.lines with requests := withoutRequest n s.lines.requests }
          clips := { s.clips with
            table := s.clips.table.map fun r => r.filter fun d => d.number != c.number
            lastEvent := some (.cancelled, c.number)
            lamp := if s.clips.tallyMode = .auto then .dark else s.clips.lamp
            blinkTimer := if s.clips.tallyMode = .auto then none else s.clips.blinkTimer } }
      let drained := (∀ d ∈ s.clipList, d = c) ∧ ∀ st, ∀ y ∈ s.entries st, y.clip = none
      (drained → ∃ t, exec command s = .next t ∧ Follows (answered .done 0 b cancelled) t) ∧
      (¬ drained → ∃ t, exec command s = .next t ∧ Follows cancelled t)))

/-! ## The register window, the status page and engine reset -/

/-- R179 and R186: a CONTROL write that leaves the FREEZE level does nothing with it. Setting FREEZE withdraws
a rewrite that waits and has not begun and leaves it owed, and none begins while it is set; releasing it owes a
rewrite, which begins at once where port and Page Writer are free and no other requester waits: the 256 bytes of
R193 to the page address, the owed flag clear and the page sequence one higher (R185). A rewrite that ends OK has
written its bytes (log entry 4), and nothing else follows. -/
def Obligations.FreezeActs : Prop :=
  (∀ s : State,
     exec (.freeze s.notices.freeze) s = .next s ∧
     (Calm s → s.notices.freeze = false →
       let waits := s.arbiter.bursts.page.any (fun b => b.kind == .rewrite) = true ∧ s.page.begun = false
         ∧ s.arbiter.port ≠ some .page
       ∃ t, exec (.freeze true) s = .next t ∧
         Follows
           { s with
             notices := { s.notices with freeze := true }
             arbiter := { s.arbiter with bursts :=
               if waits then s.arbiter.bursts.set none .page else s.arbiter.bursts } } t
         ∧ t.notices.freeze = true ∧ (s.page.owed = true → t.page.owed = true)
         ∧ t.page.sequence = s.page.sequence
         ∧ (s.arbiter.bursts.page.all (fun b => b.kind == .rewrite && !s.page.begun) = true →
           s.arbiter.port ≠ some .page → s.page.results = [] → t.arbiter.bursts.page = none)
         ∧ KeepsIntake s t ∧ KeepsCoders s t ∧ KeepsRecords s t ∧ KeepsLog s t ∧ t.walker = s.walker
         ∧ t.shared = s.shared ∧ RaisesOnly followUps s t) ∧
     (Calm s → s.notices.freeze = true →
       ∃ t, exec (.freeze false) s = .next t ∧ t.notices.freeze = false
         ∧ Follows
           { s with
             notices := { s.notices with freeze := false }
             page := { s.page with owed := s.page.owed || s.page.address.isSome } } t
         ∧ KeepsIntake s t ∧ KeepsCoders s t ∧ KeepsRecords s t ∧ KeepsLog s t ∧ t.walker = s.walker
         ∧ t.shared = s.shared ∧ RaisesOnly followUps s t
         ∧ (s.arbiter.port ≠ none → t.page.owed = (s.page.owed || s.page.address.isSome)
           ∧ t.page.sequence = s.page.sequence)) ∧
     (∀ a, Calm s → s.notices.freeze = true → s.page.address = some a → s.arbiter.port = none →
       s.page.results = [] → (∀ r, s.arbiter.bursts.get r = none) →
       (∀ st, (s.writer st).current = none ∧ (s.writer st).segments = []) →
       ∃ t, exec (.freeze false) s = .next t ∧ t.page.owed = false
         ∧ t.page.sequence = s.page.sequence + 1 ∧ t.arbiter.port = some .page
         ∧ t.arbiter.bursts.page.map (fun b => (b.kind, b.address, b.length, b.data.length, b.data.take 4))
           = some (.rewrite, a, 256, 256, leBytes 4 (s.page.sequence + 1).toNat))) ∧
  (∀ (s : State) (b : Burst), Calm s →
     s.arbiter.port = some .page → s.arbiter.bursts.page = some b → b.kind = .rewrite →
     ∃ t, exec .pageRewriteDone s = .next t ∧ Follows (portEnded .page b s) t
       ∧ (b.data ≠ [] → readByte t.shared b.address = b.data.head?))

/-- R180 and R182: a write to NOTICE clears exactly the notices whose bits are written as 1, and one that clears
FAULT empties the error log; a write to NOTICE_MASK sets all 22 enable bits. Nothing else changes, and the
interrupt output is asserted just while a notice is pending and enabled. R178 and R179: what the host reads at
each offset (log entry 11), and that the command IGNORED_REGISTER_WRITE, with any offset, has no effect. The last
part is what a 32-bit write at an offset asks for: ENTRY, NOTICE and NOTICE_MASK their one command; CONTROL the
FREEZE level of bit 3 and a request for each of the bits 0 HALT, 1 RESUME, 2 STOP and 4 ENGINE_RESET that is 1, and
nothing for bits 5 to 31; IDENT and 0x14 to 0x1F the ignored write, and so, by log entry 11's choice, the offsets
between the registers. They join the commands that wait; the order of a CONTROL write's is log entry 10's. -/
def Obligations.RegisterWindow : Prop :=
  (∀ (s : State) (v : BitVec 32),
     (∃ t, exec (.notice v) s = .next t ∧
       (∀ i, i < 22 → t.notices.pending.getLsbD i = (s.notices.pending.getLsbD i && !v.getLsbD i)) ∧
       (v.getLsbD 14 = true → s.isPending .fault = true → t.notices.log = none ∧ t.notices.later = 0) ∧
       (v.getLsbD 14 = false → t.notices.log = s.notices.log ∧ t.notices.later = s.notices.later) ∧
       t = { s with notices := { s.notices with
         pending := t.notices.pending, log := t.notices.log, later := t.notices.later } }) ∧
     (∃ t, exec (.noticeMask v) s = .next t ∧
       (∀ i, i < 22 → t.notices.mask.getLsbD i = v.getLsbD i) ∧
       t = { s with notices := { s.notices with mask := t.notices.mask } } ∧
       (interrupt t = true ↔ ∃ i, i < 22 ∧ t.notices.pending.getLsbD i = true ∧ v.getLsbD i = true))) ∧
  (∀ (s : State) (offset : BitVec 5) (v : BitVec 32),
     exec (.ignoredRegisterWrite offset v) s = .next s ∧
     readRegister 0x00 s = 0x72305001 ∧
     (∀ k, 0x14 ≤ k → k ≤ 0x1F → readRegister k s = 0) ∧
     ((readRegister 0x04 s).toNat =
       (match s.walker.state with
         | .idle => 0 | .walking => 1 | .waiting => 2 | .halted => 3 | .stopping => 4 | .resetting => 5)
       + 8 * (if s.walker.pendingEntry = none then 0 else 1)
       + 16 * (match s.walker.lastRefusal with
         | .none => 0 | .misaligned => 1 | .outOfRange => 2 | .pendingFull => 3 | .resetting => 4)) ∧
     ((readRegister 0x08 s).toNat = 8 * (if s.notices.freeze then 1 else 0)
       + 16 * (if s.walker.state = .resetting then 1 else 0)) ∧
     ((readRegister 0x0C s).toNat = s.notices.pending.toNat ∧
       (readRegister 0x10 s).toNat = s.notices.mask.toNat)) ∧
  (∀ (s : State) (offset : BitVec 5) (v : BitVec 32),
     writeCommands 0x04 v = [.entry v] ∧ writeCommands 0x0C v = [.notice v] ∧ writeCommands 0x10 v = [.noticeMask v] ∧
     ((writeCommands 0x08 v).Nodup ∧ ∀ c, c ∈ writeCommands 0x08 v ↔
       c = .freeze (v.getLsbD 3) ∨ (c = .halt ∧ v.getLsbD 0 = true) ∨ (c = .resume ∧ v.getLsbD 1 = true)
         ∨ (c = .stop ∧ v.getLsbD 2 = true) ∨ (c = .engineReset ∧ v.getLsbD 4 = true)) ∧
     (offset ∉ [0x04, 0x08, 0x0C, 0x10] → writeCommands offset v = [.ignoredRegisterWrite offset v]) ∧
     hostWrite offset v s = { s with pending := s.pending ++ writeCommands offset v })

/-- R172, R188 and the blocks' rules for the beginning of an engine reset (R7, R34, R50, R70, R93, R117, R142,
R158): an ENGINE_RESET while one is in progress has no effect (R179). One that begins clears the blocks, keeps
what the host has set up, and raises no notice of its own but SYNC, where the sync state was not NONE; waiting
bursts but the Page Writer's are withdrawn, and the attempt counts are 0 but for one of a Page Writer's burst (log
entry 35); with no segment held and the port free it completes at once (R189). The Page Writer is not reset: the kind of its work made
last is set at the completion, and a burst of its own leaves it as it was (R187, R188). A burst of the walker or a writer
in progress at the beginning ends with its answer, OK, RETRY or ERROR, whichever it is: the port is free, the
burst is not reissued, its bytes are not used or counted, and no fault is reported (R142, R172; shared memory:
log entries 4 and 7). R142: each stream's segments go back with ENGINE_RESET, the current one
first, with the bytes of an entry begun in it taken back, then the list, one at a time; none while its writer's
burst is in progress or a result of it waits. One in progress completes when no burst from before it is in
progress, no result waits and the writers hold no segment: RESET_DONE is raised, the walker is IDLE and every
attempt count is 0 (R143; log entries 19, 20 and 24). -/
def Obligations.EngineResetActs : Prop :=
  (∀ s : State,
     let returned := fun (port : Option Requester) (st : Stream) (before : List Result) (t : State) =>
       let w := s.writer st
       let back : Option Result × Option Current × List Segment :=
         if port = some (writerRequester st) ∨ before.any (·.stream == st) = true then
           (none, w.current, w.segments)
         else match w.current, w.segments with
           | some c, listed =>
             (some ⟨st, c.segment, c.entryStart.getD c.position, c.clip.getD 0,
               if c.entryStart ≠ none ∧ c.begun ≤ 1 then 0 else c.first.getD 0,
               min (if c.entryStart = none then c.begun else c.begun - 1) 65535, c.continued, .engineReset, true,
               false⟩, none, listed)
           | none, g :: rest => (some ⟨st, g, 0, 0, 0, 0, false, .engineReset, false, false⟩, none, rest)
           | none, [] => (none, none, [])
       (t.writer st).current = back.2.1 ∧ (t.writer st).segments = back.2.2
         ∧ t.page.results.filter (·.stream == st) = before.filter (·.stream == st) ++ back.1.toList
     (s.walker.state = .resetting → exec .engineReset s = .next s) ∧
     (s.walker.state ≠ .resetting →
       let bare := fun w : Writer => w.segments = [] ∧ w.current = none
       let empty := s.arbiter.port = none ∧ s.page.results = [] ∧ bare (s.writer .master)
         ∧ bare (s.writer .proxy)
       let r := s.intake.geometry.map fun g => rateOf g.code
       let g := s.governor.inputs
       let nominal := (r.map fun q => g.rate * 125 * q.den / q.num).getD 0
       let burst := nominal * (if g.depth = 32 ∧ g.mode ≠ .skip then 16 else g.depth)
       ∃ t, exec .engineReset s = .next t ∧
         (t.intake = { s.intake with state := .stopped, arrival := none, lost := 0, malformed := 0 }
           ∧ t.slots = List.replicate 16 ⟨.free, 0, []⟩ ∧ t.inputs = ⟨[], []⟩) ∧
         (t.master = { s.master with picture := none } ∧ t.proxy = { s.proxy with picture := none }) ∧
         t.governor = ⟨g, (r.map fun q => g.rate * 125 * q.den).getD 0, nominal, burst,
           nominal * g.threshold / 16, burst, 0, g.qstart, false, 0, 0⟩ ∧
         t.queue = { s.queue with
           queues := ⟨⟨[], false⟩, ⟨[], false⟩⟩, intakeMarks := ⟨none, none⟩, agingLine := 0 } ∧
         t.clips = { s.clips with
           table := [none, none, none, none], rollFloor := 0, held := [], heldLost := 0, blinkTimer := none
           lamp := if s.clips.tallyMode = .forceOn then .lit else .dark } ∧
         (t.lines.lines = s.lines.lines ∧ t.lines.requests = s.lines.requests) ∧
         t.lines.sync = { s.lines.sync with
           reference := none, lastPhase := 0, hitRun := 0, missRun := 0, missing := 0, state := .none } ∧
         (t.walker.block = none ∧ t.walker.pendingEntry = none ∧ t.walker.continuation = none
           ∧ t.walker.lastBlock = none ∧ t.walker.count = 0 ∧ t.walker.haltRequest = false
           ∧ t.walker.lastRefusal = s.walker.lastRefusal) ∧
         (∀ st, (t.writer st).relinquish = none ∧ (t.writer st).gapTimer = none
           ∧ (t.writer st).written = 0 ∧ (t.writer st).gapCount = 0 ∧ (t.writer st).spells = 0) ∧
         (t.arbiter.retries = 0
           ∧ (s.arbiter.port ≠ none → t.arbiter.port = s.arbiter.port ∧ t.arbiter.position = .proxy)
           ∧ (∀ r, r ≠ .page → t.arbiter.attempts.get r = 0
             ∧ t.arbiter.bursts.get r = if s.arbiter.port = some r then s.arbiter.bursts.get r else none)
           ∧ t.arbiter.attempts.page = (if empty ∨ s.arbiter.bursts.page = none then 0 else s.arbiter.attempts.page)
           ∧ (s.arbiter.bursts.page ≠ none → t.page.sequence = s.page.sequence →
             t.arbiter.bursts.page = s.arbiter.bursts.page)) ∧
         (∀ st, returned s.arbiter.port st (s.page.results.map fun r => { r with counted := false }) t) ∧
         (t.isPending .sync = (s.isPending .sync || decide (s.lines.sync.state ≠ .none))) ∧
         (t.page.sequence = s.page.sequence →
           (empty → t.page.lastKind = .result) ∧
           (¬ empty → s.arbiter.bursts.page ≠ none → t.page.lastKind = s.page.lastKind)) ∧
         (KeepsSettings s t ∧ KeepsLog s t ∧ t.shared = s.shared) ∧
         (t.walker.state = if empty then .idle else .resetting) ∧
         (empty → t.isPending .resetDone = true) ∧
         RaisesOnly (if empty then [.sync, .resetDone] else [.sync, .low .master, .low .proxy]) s t) ∧
     (∀ b r rest, s.walker.state = .resetting → NoRelinquish s →
       s.arbiter.port = some .page → s.arbiter.bursts.page = some b → b.kind = .resultCount →
       s.page.results = r :: rest → r.counted = false →
       ∃ t, exec .resultCountBurstDone s = .next t ∧ t.isPending (.returned r.stream) = true
         ∧ t.writers.grants = s.writers.grants.filter (fun g => g.returned != g.slots)
         ∧ ∀ st, returned none st rest t) ∧
     (∀ r b bytes c, s.walker.state = .resetting → s.walker.block = none → s.arbiter.resetBurst = true →
       s.arbiter.port = some r → s.arbiter.bursts.get r = some b →
       (r = .walker ∧ b.kind ∈ [.header, .body, .table, .outcome, .refusedSlot, .walkerCount]
         ∨ (∃ st, r = writerRequester st) ∧ b.kind = .entry) →
       c ∈ [okAnswer bytes b.kind, .burstRetry, .burstError] →
       ∃ t, exec c s = .next t ∧ t.walker = s.walker ∧ t.arbiter.bursts.get r = none
         ∧ t.arbiter.resetBurst = false
         ∧ t.arbiter.retries = (if c = .burstRetry then min (s.arbiter.retries + 1) (2 ^ 32 - 1) else s.arbiter.retries)
         ∧ t.shared = (if c = .burstRetry then s.shared
           else if c = .burstError then forgetBytes s.shared b.address b.data.length
           else writeBytes s.shared b.address b.data)
         ∧ (∀ st, (t.writer st).written = (s.writer st).written ∧ (t.writer st).gapCount = (s.writer st).gapCount)
         ∧ KeepsIntake s t ∧ KeepsCoders s t ∧ KeepsRecords s t ∧ KeepsSettings s t ∧ KeepsLog s t
         ∧ t.lines = s.lines ∧ t.writers.grants = s.writers.grants ∧ RaisesOnly followUps s t
         ∧ ∀ st, returned none st s.page.results t)) ∧
  (∀ s : State,
     let clear := s.arbiter.resetBurst = false ∧ s.page.results = [] ∧
       ∀ st, (s.writer st).segments = [] ∧ (s.writer st).current = none
     (s.walker.state ≠ .resetting ∨ ¬ clear → exec .engineResetComplete s = .next s) ∧
     (s.walker.state = .resetting → s.walker.block = none → clear → NoRelinquish s →
       ∃ t, exec .engineResetComplete s = .next t ∧
         Follows
           (raise .resetDone
             { s with
               walker := { s.walker with state := .idle }
               writers := { s.writers with
                 streams := ⟨{ s.writer .master with spells := 0 }, { s.writer .proxy with spells := 0 }⟩ }
               arbiter := { s.arbiter with
                 position := .proxy, retries := 0
                 attempts := ⟨0, 0, 0, 0⟩ }
               page := { s.page with lastKind := .result } }) t))
end

