-- ==== Sys2Proof/Laws/Layouts.lean ====
section
/-! SUPPORT. The model's bytes are those of the layouts: `statusPage_eq`, `entryBytes_eq`, `resultBytes_eq`. -/

namespace Sys2Proof.Laws

open Sys2Proof.Machine

/-! ## Rows that follow one another -/

/-- The rows follow one another from offset `o` on. -/
def follows : Nat → List (Nat × Nat) → Bool
  | _, [] => true
  | o, r :: rest => r.1 == o && follows (o + r.2) rest

/-- The offsets and sizes of rows. -/
def shapes (rows : List Row) : List (Nat × Nat) := rows.map fun r => (r.1, r.2.1)

/-- The bytes of rows one after another. -/
def joined (rows : List Row) : List Byte := rows.flatMap fun r => leBytes r.2.1 r.2.2

theorem leBytes_eq (n v : Nat) : leBytes n v = (List.range n).map fun k => BitVec.ofNat 8 (v / 256 ^ k) := by
  induction n generalizing v with
  | zero => rfl
  | succ n ih =>
    rw [leBytes, ih, List.range_succ_eq_map]
    simp [Nat.div_div_eq_div_mul, Nat.pow_succ, Nat.mul_comm, Function.comp_def]

/-- Rows that follow one another give their bytes one after another. -/
theorem range_joined (rows : List Row) (o : Nat) (h : follows o (shapes rows) = true) :
    (List.range ((shapes rows).map Prod.snd).sum).map (fun k => rowByte rows (o + k)) = joined rows := by
  induction rows generalizing o with
  | nil => rfl
  | cons r rest ih =>
    obtain ⟨a, n, v⟩ := r
    simp only [shapes, List.map_cons, follows, Bool.and_eq_true, beq_iff_eq] at h
    obtain ⟨rfl, h⟩ := h
    have tail := ih (a + n) h
    simp only [shapes, List.map_cons, List.sum_cons, List.range_add, List.map_append, List.map_map] at tail ⊢
    rw [show joined ((a, n, v) :: rest) = leBytes n v ++ joined rest from rfl, leBytes_eq, ← tail]
    congr 1
    · apply List.map_congr_left
      intro k hk
      have lt : k < n := List.mem_range.mp hk
      simp [rowByte, lt]
    · apply List.map_congr_left
      intro k _
      simp [rowByte, Nat.add_assoc]

theorem follows_append (a b : List (Nat × Nat)) (o : Nat) :
    follows o (a ++ b) = (follows o a && follows (o + (a.map Prod.snd).sum) b) := by
  induction a generalizing o with
  | nil => simp [follows]
  | cons r rest ih => simp [follows, ih, Bool.and_assoc, Nat.add_assoc]

/-- The rows cover the `n` bytes from offset `o` on, one after another. -/
def Spans (o n : Nat) (rows : List Row) : Prop :=
  follows o (shapes rows) = true ∧ ((shapes rows).map Prod.snd).sum = n

theorem Spans.append {o n m : Nat} {a b : List Row} (first : Spans o n a) (then_ : Spans (o + n) m b) :
    Spans o (n + m) (a ++ b) := by
  obtain ⟨fa, rfl⟩ := first
  obtain ⟨fb, rfl⟩ := then_
  exact ⟨by simp only [shapes, List.map_append] at *; rw [follows_append, fa, fb]; rfl, by simp [shapes]⟩

theorem layout_joined (rows : List Row) (n : Nat) (h : Spans 0 n rows) : layout n rows = joined rows := by
  have e := range_joined rows 0 h.1
  rw [h.2] at e
  simpa [layout] using e

/-! ## The layouts -/

theorem ageOf?_eq (s : State) (x : Option Frame) : ageOf? s x = ageIn s x := by cases x <;> rfl

theorem ageOf_eq (s : State) (x : Frame) : ageOf s x = ageIn s (some x) := rfl

theorem leSigned_one (v : Int) : leSigned 1 v = leBytes 1 (v % 256).toNat := by norm_num [leSigned]

theorem leSigned_three (v : Int) : leSigned 3 v = leBytes 3 (v % 16777216).toNat := by norm_num [leSigned]

theorem flagBit_eq : flagBit = bit := rfl

theorem shownAs_eq : shownAs = shown := rfl

theorem joined_nil : joined [] = [] := rfl

theorem joined_cons (o n v : Nat) (rest : List Row) : joined ((o, n, v) :: rest) = leBytes n v ++ joined rest := rfl

theorem joined_append (a b : List Row) : joined (a ++ b) = joined a ++ joined b := by simp [joined]

theorem resultBytes_eq (r : Result) :
    resultBytes r.bytesUsed r.first r.clip r.begun r.reason r.continued = layout 15 (resultRows r) := by
  rw [layout_joined (resultRows r) 15 ⟨rfl, rfl⟩]
  obtain ⟨st, seg, used, clip, first, begun, continued, reason, own, counted⟩ := r
  cases reason <;> rfl

theorem headerRows_spans (e : Entry) : Spans 0 32 (headerRows e) := ⟨rfl, by simp [shapes, headerRows]⟩

theorem headerBytes_eq (e : Entry) : headerBytes e = layout 32 (headerRows e) := by
  have kind : e.kind.code = 1 + codeIn [.coded, .repeated, .gap, .trailer] e.kind := by cases e.kind <;> rfl
  have stream : streamCode e.stream = codeIn [.master, .proxy] e.stream := by cases e.stream <;> rfl
  rw [layout_joined (headerRows e) 32 (headerRows_spans e)]
  simp only [headerBytes, headerRows, joined_cons, joined_nil, List.append_nil, List.append_assoc, kind,
    stream, flagBit_eq]

theorem pageIntake_eq (s : State) : pageIntake s = joined (intakeRows s) := by
  have state : s.intake.state.code = codeIn [.stopped, .running, .stopping] s.intake.state := by
    cases s.intake.state <;> rfl
  unfold pageIntake intakeRows
  simp only [joined_cons, joined_nil, List.append_nil, List.append_assoc, ageOf?_eq, state, leSigned_one,
    flagBit_eq, shownAs_eq, State.resetting]

theorem pageGovernor_eq (s : State) : pageGovernor s = joined (governorRows s) := by
  have mode : s.governor.inputs.mode.code = codeIn [.off, .degrade, .skip] s.governor.inputs.mode := by
    cases s.governor.inputs.mode <;> rfl
  have depth : depthCode = codeIn [4, 8, 16] := by
    funext k
    unfold depthCode
    split_ifs with a b c
    · subst a; rfl
    · subst b; rfl
    · subst c; rfl
    · simp [codeIn, Ne.symm a, Ne.symm b, Ne.symm c]
  simp only [pageGovernor, governorRows, joined_cons, joined_nil, List.append_nil, List.append_assoc, mode,
    leSigned_three, shownAs_eq, depth, effectiveDepth]

theorem pageQueues_eq (s : State) : pageQueues s = joined (queueRows s) := by
  have held : Entry.isHeld = fun e => e.clip.isNone := rfl
  simp only [pageQueues, queueRows, joined_cons, joined_nil, List.append_nil, List.append_assoc, ageOf?_eq,
    ageOf_eq, committedCount, heldFrames, bytesInUse, held, Option.not_isNone, shownAs_eq]

theorem packPairs_eq (pairs : List (Nat × Clip)) :
    packPairs (pairs.map Prod.fst) = pairs.foldr (fun c n => c.1 + 4 * n) 0 := by
  induction pairs with
  | nil => rfl
  | cons c rest ih => simp [packPairs, ih]

theorem pageFlags_eq (s : State) : pageFlags s = joined (clipFlagRows s) := by
  have capture : captureCode s.lines.sync.last
      = (s.lines.sync.last.map fun c => 1 + codeIn [.hit, .miss] c.2).getD 0 := by
    rcases s.lines.sync.last with _ | ⟨d, r⟩
    · rfl
    · cases r <;> rfl
  have sync : s.lines.sync.state.code = codeIn [.none, .locked, .lost] s.lines.sync.state := by
    cases s.lines.sync.state <;> rfl
  have tally : s.clips.tallyMode.code = codeIn [.auto, .forceOn, .forceOff] s.clips.tallyMode := by
    cases s.clips.tallyMode <;> rfl
  have lamp : s.clips.lamp.code = codeIn [.dark, .lit, .blink] s.clips.lamp := by
    cases s.clips.lamp <;> rfl
  have event : (s.clips.lastEvent.map fun e => e.1.code) = s.clips.lastEvent.map fun e =>
      1 + codeIn [.opened, .closed, .cancelled, .broken, .retired, .rollRefused] e.1 := by
    rcases s.clips.lastEvent with _ | ⟨e, n⟩
    · rfl
    · cases e <;> rfl
  simp only [pageFlags, clipFlagRows, joined_cons, joined_nil, List.append_nil, List.append_assoc, capture,
    sync, tally, lamp, event, packPairs_eq, flagBit_eq, shownAs_eq]

theorem pageClip_eq (s : State) (q : Nat) : pageClip s (s.clips.table.getD q none) = joined (recordRows s q) := by
  rcases h : s.clips.table.getD q none with _ | c
  · simp only [recordRows, h, joined_cons, joined_nil, pageClip, ageIn, Option.map_none, Option.getD_none]
    rfl
  · simp only [recordRows, h, pageClip, joined_cons, joined_nil, List.append_nil, List.append_assoc,
      Option.map_some, Option.getD_some, ageOf_eq]
    rcases c.closing with _ | ⟨last, reason⟩
    · rfl
    · cases reason <;> rfl

theorem pageClips_eq (s : State) : pageClips s
    = joined (recordRows s 0 ++ recordRows s 1 ++ recordRows s 2 ++ recordRows s 3) := by
  simp only [joined_append, ← pageClip_eq]
  simp [pageClips, List.range_succ]

theorem packNibbles_eq (marks : List Mark) : packNibbles marks
    = marks.foldr (fun m n => 8 * codeIn [.good, .flag] m.kind + sourceIn m.source + 16 * n) 0 := by
  induction marks with
  | nil => rfl
  | cons m rest ih =>
    have kind : m.kind.code - 1 = codeIn [.good, .flag] m.kind := by cases m.kind <;> rfl
    have source : sourceCode m.source = sourceIn m.source := by cases m.source <;> rfl
    rw [packNibbles, ih, List.foldr_cons, markNibble, kind, source]

theorem pageMarks_eq (s : State) : pageMarks s = joined (markRows s) := by
  simp [pageMarks, markRows, joined_cons, joined_nil, List.range_succ, ageOf?_eq,
    packNibbles_eq]

theorem pageWriters_eq (s : State) : pageWriters s = joined (writerRows s) := by
  have state : ∀ w : Writer, w.state.code = codeIn [.idle, .writing, .starved, .gap] w.state := fun w => by
    cases w.state <;> rfl
  simp only [pageWriters, writerRows, joined_cons, joined_nil, List.append_nil, List.append_assoc, state,
    flagBit_eq, shownAs_eq]

theorem pageLines_eq (s : State) : pageLines s = joined (lineRows s) := by
  have line : ∀ l : Line, [pageLine l] = leBytes 1
      (codeIn [.none, .rollToggle, .rollHold, .markGood, .markFlag, .syncRef] l.role
        + 8 * flagBit (l.filtered == .high) + 16 * flagBit l.timer.isSome) := fun l => by
    cases h : l.role <;> simp [pageLine, h] <;> rfl
  simp only [pageLines, lineRows, List.range_succ, List.range_zero, List.nil_append,
    List.cons_append, List.map_cons, List.map_nil, joined_cons, joined_nil, ← line, List.append_assoc,
    List.append_nil]

theorem pageWalker_eq (s : State) : pageWalker s = joined (walkerRows s) := by
  have state : s.walker.state.code
      = codeIn [.idle, .walking, .waiting, .halted, .stopping, .resetting] s.walker.state := by
    cases s.walker.state <;> rfl
  have kind : kindNibble s.walker = (s.walker.block.map fun b =>
      if (b.byteAt 0).toNat < 16 then (b.byteAt 0).toNat
      else (Config.wideKindNibble (b.byteAt 0)).toNat).getD 0 := by
    unfold kindNibble
    cases s.walker.block <;> rfl
  simp only [pageWalker, walkerRows, joined_cons, joined_nil, List.append_nil, List.append_assoc, state, kind,
    flagBit_eq]

theorem pageFault_eq (s : State) : pageFault s = joined (faultRows s) := by
  rcases h : s.notices.log with _ | ⟨kind, source, address, frame, stream⟩
  · simp only [faultRows, pageFault, h, joined_cons, joined_nil]
    rfl
  · have k : kind.code = 1 + codeIn [.systemError, .retryLimit, .fetchFault, .writebackFault, .chainForm,
        .chainLoop, .frameLost, .frameMalformed, .queueFull, .resultWrite] kind := by cases kind <;> rfl
    have r : source.code = 1 + codeIn [.pictureIntake, .clipControl, .masterWriter, .proxyWriter,
        .pageWriter, .directiveWalker] source := by cases source <;> rfl
    have t : faultStreamCode stream = (stream.map fun st => 1 + codeIn [.master, .proxy] st).getD 0 := by
      rcases stream with _ | st
      · rfl
      · cases st <;> rfl
    simp only [faultRows, pageFault, h, k, r, t, joined_cons, joined_nil, List.append_nil, List.append_assoc,
      Option.map_some, Option.getD_some]

theorem pageRows_spans (s : State) : Spans 0 256 (pageRows s) := by
  have intake : Spans 0 36 (intakeRows s) := ⟨rfl, by simp [shapes, intakeRows]⟩
  have governor : Spans 36 32 (governorRows s) := ⟨rfl, by simp [shapes, governorRows]⟩
  have queue : Spans 68 32 (queueRows s) := ⟨rfl, by simp [shapes, queueRows]⟩
  have flags : Spans 100 12 (clipFlagRows s) := ⟨rfl, by simp [shapes, clipFlagRows]⟩
  have record : ∀ q, Spans (112 + 16 * q) 16 (recordRows s q) := fun q =>
    ⟨by simp [shapes, recordRows, follows]; omega, rfl⟩
  have marks : Spans 176 20 (markRows s) := ⟨rfl, rfl⟩
  have writers : Spans 196 20 (writerRows s) := ⟨rfl, by simp [shapes, writerRows]⟩
  have lines : Spans 216 12 (lineRows s) := ⟨rfl, rfl⟩
  have walker : Spans 228 13 (walkerRows s) := ⟨rfl, by simp [shapes, walkerRows]⟩
  have fault : Spans 241 15 (faultRows s) := ⟨rfl, by simp [shapes, faultRows]⟩
  exact (((((((((((intake.append governor).append queue).append flags).append (record 0)).append
    (record 1)).append (record 2)).append (record 3)).append marks).append writers).append lines).append
    walker).append fault

/-- The status page as the model forms it is the layout of section 11.4. -/
theorem statusPage_eq (s : State) : statusPage s = pageBytes s := by
  rw [pageBytes, layout_joined (pageRows s) 256 (pageRows_spans s)]
  simp only [statusPage, pageRows, joined_append, pageIntake_eq, pageGovernor_eq, pageQueues_eq, pageFlags_eq,
    pageClips_eq, pageMarks_eq, pageWriters_eq, pageLines_eq, pageWalker_eq, pageFault_eq, List.append_assoc]

/-! ## An entry's bytes -/

theorem rowByte_beyond (rows : List Row) (o k : Nat) (h : follows o (shapes rows) = true)
    (b : o + ((shapes rows).map Prod.snd).sum ≤ k) : rowByte rows k = 0 := by
  induction rows generalizing o with
  | nil => rfl
  | cons r rest ih =>
    obtain ⟨a, n, v⟩ := r
    simp only [shapes, List.map_cons, follows, Bool.and_eq_true, beq_iff_eq, List.sum_cons] at h b
    obtain ⟨rfl, h⟩ := h
    have past : ¬ k < a + n := by omega
    have tail := ih (a + n) h (by simp only [shapes]; omega)
    simpa [rowByte, past] using tail

theorem getD_layout {n : Nat} {rows : List Row} {bytes : List Byte} (e : bytes = layout n rows)
    (spans : Spans 0 n rows) (k : Nat) : bytes.getD k 0 = rowByte rows k := by
  subst e
  by_cases h : k < n
  · simp [layout, h]
  · rw [rowByte_beyond rows 0 k spans.1 (by rw [spans.2]; omega)]
    simp [layout, h]

theorem markRows_spans (marks : List Mark) (i : Nat) :
    Spans (32 + 8 * i) (8 * marks.length) (marks.mapIdx fun j m =>
      ([(32 + 8 * (i + j), 4, m.frame.toNat), (36 + 8 * (i + j), 1, 1 + codeIn [.good, .flag] m.kind),
        (37 + 8 * (i + j), 1, sourceIn m.source), (38 + 8 * (i + j), 2, 0)] : List Row)).flatten := by
  induction marks generalizing i with
  | nil => exact ⟨rfl, rfl⟩
  | cons m rest ih =>
    have tail := ih (i + 1)
    rw [List.mapIdx_cons, List.flatten_cons, List.length_cons, Nat.mul_succ, Nat.add_comm (8 * rest.length)]
    refine Spans.append ⟨by simp [shapes, follows]; omega, rfl⟩ ?_
    simpa [Nat.mul_add, Nat.add_assoc, Nat.add_comm, Nat.add_left_comm] using tail

theorem trailerRows_spans (t : TrailerRecord) : Spans 0 (32 + 8 * t.marks.length) (trailerRows t) := by
  have marks := markRows_spans t.marks 0
  simp only [Nat.zero_add, Nat.mul_zero, Nat.add_zero] at marks
  refine Spans.append (n := 32) ⟨rfl, by simp [shapes]⟩ ?_
  simpa using marks

theorem trailerBytes_eq (t : TrailerRecord) :
    trailerBytes t = layout (32 + 8 * t.marks.length) (trailerRows t) := by
  have reason : t.reason.code = 1 + codeIn [.cutStopped, .brokenMasterFull, .brokenProxyFull,
      .brokenIndexFull] t.reason := by cases t.reason <;> rfl
  have each : ∀ m : Mark, markBytesOf m = leBytes 4 m.frame.toNat ++ (leBytes 1 (1 + codeIn [.good, .flag] m.kind)
      ++ (leBytes 1 (sourceIn m.source) ++ leBytes 2 0)) := fun m => by
    have kind : m.kind.code = 1 + codeIn [.good, .flag] m.kind := by cases m.kind <;> rfl
    have source : sourceCode m.source = sourceIn m.source := by cases m.source <;> rfl
    simp only [markBytesOf, kind, source, List.append_assoc]
  rw [layout_joined _ _ (trailerRows_spans t), trailerRows, joined_append]
  simp only [trailerBytes, joined_cons, joined_nil, List.append_nil, List.append_assoc, reason]
  have list : ∀ (marks : List Mark) (i : Nat), marks.flatMap markBytesOf = joined (marks.mapIdx fun j m =>
      ([(32 + 8 * (i + j), 4, m.frame.toNat), (36 + 8 * (i + j), 1, 1 + codeIn [.good, .flag] m.kind),
        (37 + 8 * (i + j), 1, sourceIn m.source), (38 + 8 * (i + j), 2, 0)] : List Row)).flatten := by
    intro marks
    induction marks with
    | nil => exact fun _ => rfl
    | cons m rest ih =>
      intro i
      rw [List.flatMap_cons, List.mapIdx_cons, List.flatten_cons, joined_append, ih (i + 1), each]
      simp [joined_cons, joined_nil, Nat.add_assoc, Nat.add_comm 1]
  rw [list t.marks 0]
  simp only [Nat.zero_add]

/-- The bytes that a writer writes of an entry are the header and payload of section 11.3. -/
theorem entryByte_eq (e : Entry) (k : Nat) : entryByte e k = writtenByte e k := by
  unfold entryByte writtenByte
  split
  · exact getD_layout (headerBytes_eq e) (headerRows_spans e) k
  · unfold payloadByte
    cases e.payload with
    | none => rfl
    | coded tag => rfl
    | trailer t => exact getD_layout (trailerBytes_eq t) (trailerRows_spans t) (k - 32)

end Sys2Proof.Laws
end

