-- ==== Sys2Proof/Laws/Notices.lean ====
section
/-! SUPPORT. What raising a notice and reporting a fault do. -/

namespace Sys2Proof.Laws

open Sys2Proof.Machine

/-- Every notice has a bit of its own, below 22 (R180). -/
theorem position_lt (n : Notice) : n.position < 22 := by
  cases n with
  | line m => have := m.isLt; simp only [Notice.position]; omega
  | returned st | low st | starved st | high st => cases st <;> decide
  | _ => decide

/-- The notice at a bit position. -/
def noticeAt (p : Nat) : Notice :=
  if h : 16 ≤ p ∧ p < 22 then .line ⟨p - 16, by omega⟩
  else
    [.chain, .entryRefused, .returned .master, .returned .proxy, .low .master, .low .proxy,
      .starved .master, .starved .proxy, .high .master, .high .proxy, .clip, .mark, .sync, .intake,
      .fault, .resetDone].getD p .chain

theorem noticeAt_position (n : Notice) : noticeAt n.position = n := by
  cases n with
  | line m => have := m.isLt; simp [noticeAt, Notice.position]; omega
  | returned st | low st | starved st | high st => cases st <;> rfl
  | _ => rfl

theorem position_injective (m n : Notice) (h : m.position = n.position) : m = n := by
  rw [← noticeAt_position m, h, noticeAt_position]

theorem isPending_raise (m n : Notice) (s : State) :
    (raise n s).isPending m = (s.isPending m || decide (m = n)) := by
  have hn := position_lt n
  simp only [raise, oweRewrite, State.isPending, Notice.mask, BitVec.getLsbD_or, BitVec.getLsbD_twoPow]
  congr 1
  by_cases h : m = n
  · subst h; simp [hn]
  · have : n.position ≠ m.position := fun e => h (position_injective m n e.symm)
    simp [h, this]

/-- Raising a notice changes the pending notices and the owed flag, and nothing else. -/
theorem raise_eq (n : Notice) (s : State) :
    raise n s =
      { s with
        notices := { s.notices with pending := s.notices.pending ||| n.mask }
        page := { s.page with owed := s.page.owed || s.page.address.isSome } } := rfl

/-- A fault reported while FAULT is not pending is captured; otherwise it is counted (R181). -/
theorem logFault_eq (f : FaultReport) (s : State) :
    (logFault f s).pending = s.notices.pending ∧ (logFault f s).mask = s.notices.mask
      ∧ (logFault f s).freeze = s.notices.freeze
      ∧ (s.isPending .fault = false → (logFault f s).log = some f ∧ (logFault f s).later = 0)
      ∧ (s.isPending .fault = true →
          (logFault f s).log = s.notices.log ∧ (logFault f s).later = min (s.notices.later + 1) 255) := by
  unfold logFault countUp
  split <;> simp_all

theorem isPending_reportFault (m : Notice) (f : FaultReport) (s : State) :
    (reportFault f s).isPending m = (s.isPending m || decide (m = .fault)) := by
  unfold reportFault
  rw [isPending_raise]
  simp [State.isPending, (logFault_eq f s).1]

theorem raisesOnly_refl (allowed : List Notice) (s : State) : RaisesOnly allowed s s :=
  fun _ => ⟨id, Or.inl⟩

theorem raisesOnly_trans {allowed : List Notice} {s t u : State} (h : RaisesOnly allowed s t)
    (k : RaisesOnly allowed t u) : RaisesOnly allowed s u := fun n =>
  ⟨fun p => (k n).1 ((h n).1 p), fun p => ((k n).2 p).elim (h n).2 Or.inr⟩

theorem raisesOnly_of_pending {allowed : List Notice} {s t : State}
    (h : t.notices.pending = s.notices.pending) : RaisesOnly allowed s t := by
  intro n
  simp only [State.isPending, h]
  exact ⟨id, Or.inl⟩

theorem raisesOnly_raise {allowed : List Notice} {n : Notice} (h : n ∈ allowed) (s : State) :
    RaisesOnly allowed s (raise n s) := by
  intro m
  rw [isPending_raise]
  constructor
  · intro p; simp [p]
  · intro p
    rcases Bool.or_eq_true_iff.mp p with q | q
    · exact Or.inl q
    · exact Or.inr (of_decide_eq_true q ▸ h)

end Sys2Proof.Laws
end

