-- ==== Sys2Proof/Laws/Settling.lean ====
section
/-! SUPPORT. What each operation on the port, the walker's record and the writers can do, and so what settling
can do. -/

namespace Sys2Proof.Laws

open Sys2Proof.Machine

theorem followedBy_refl (s : State) : FollowedBy s s :=
  ⟨⟨rfl, rfl, rfl⟩, ⟨rfl, rfl, rfl, rfl⟩, ⟨rfl, rfl⟩, rfl, ⟨rfl, rfl, rfl, rfl, rfl, rfl, rfl, rfl⟩, rfl,
    ⟨rfl, rfl⟩, rfl, rfl, raisesOnly_refl _ _⟩

theorem followedBy_trans {s t u : State} (h : FollowedBy s t) (k : FollowedBy t u) : FollowedBy s u where
  intake := ⟨k.intake.intake.trans h.intake.intake, k.intake.slots.trans h.intake.slots,
    k.intake.inputs.trans h.intake.inputs⟩
  coders := ⟨k.coders.master.trans h.coders.master, k.coders.proxy.trans h.coders.proxy,
    k.coders.governor.trans h.coders.governor, k.coders.freeTag.trans h.coders.freeTag⟩
  records := ⟨k.records.queue.trans h.records.queue, k.records.clips.trans h.records.clips⟩
  lines := k.lines.trans h.lines
  settings := ⟨k.settings.pending.trans h.settings.pending, k.settings.mask.trans h.settings.mask,
    k.settings.freeze.trans h.settings.freeze, k.settings.address.trans h.settings.address,
    k.settings.watermark.trans h.settings.watermark, k.settings.gapTime.trans h.settings.gapTime,
    k.settings.retry.trans h.settings.retry, k.settings.high.trans h.settings.high⟩
  shared := k.shared.trans h.shared
  log := ⟨k.log.log.trans h.log.log, k.log.later.trans h.log.later⟩
  grants := k.grants.trans h.grants
  retries := k.retries.trans h.retries
  raises := raisesOnly_trans h.raises k.raises

/-- A state that differs from `s` in the walker, the writers' streams, the port and the page's own work is
followed by nothing else. -/
theorem followedBy_of_eq {s t : State}
    (h : t = { s with
      walker := t.walker
      writers := { s.writers with streams := t.writers.streams }
      arbiter := { t.arbiter with high := s.arbiter.high, retries := s.arbiter.retries }
      page := { t.page with address := s.page.address } }) : FollowedBy s t := by
  rw [h]
  exact ⟨⟨rfl, rfl, rfl⟩, ⟨rfl, rfl, rfl, rfl⟩, ⟨rfl, rfl⟩, rfl, ⟨rfl, rfl, rfl, rfl, rfl, rfl, rfl, rfl⟩,
    rfl, ⟨rfl, rfl⟩, rfl, rfl, raisesOnly_of_pending rfl⟩

theorem raise_followedBy {n : Notice} (h : n ∈ followUps) (s : State) : FollowedBy s (raise n s) :=
  ⟨⟨rfl, rfl, rfl⟩, ⟨rfl, rfl, rfl, rfl⟩, ⟨rfl, rfl⟩, rfl, ⟨rfl, rfl, rfl, rfl, rfl, rfl, rfl, rfl⟩, rfl,
    ⟨rfl, rfl⟩, rfl, rfl, raisesOnly_raise h s⟩

theorem raiseIf_followedBy {n : Notice} (h : n ∈ followUps) (b : Bool) (s : State) :
    FollowedBy s (raiseIf b n s) := by
  cases b with
  | false => exact followedBy_refl s
  | true => exact raise_followedBy h s

theorem low_mem (st : Stream) : Notice.low st ∈ followUps := by cases st <;> decide

theorem starved_mem (st : Stream) : Notice.starved st ∈ followUps := by cases st <;> decide

/-! ## The port and the walker's record -/

theorem requestBurst_followedBy (r : Requester) (b : Burst) (s : State) :
    FollowedBy s (requestBurst r b s) := followedBy_of_eq rfl

theorem dropBurst_followedBy (r : Requester) (s : State) : FollowedBy s (dropBurst r s) :=
  followedBy_of_eq rfl

theorem freePort_followedBy (s : State) : FollowedBy s (freePort s) := followedBy_of_eq rfl

theorem changeWalker_followedBy (f : Walker → Walker) (s : State) : FollowedBy s (changeWalker f s) :=
  followedBy_of_eq rfl

theorem putStage_followedBy (stage : Stage) (s : State) : FollowedBy s (putStage stage s) :=
  followedBy_of_eq rfl

theorem takeBlock_followedBy (a : Nat) (s : State) : FollowedBy s (takeBlock a s) := followedBy_of_eq rfl

theorem complete_followedBy (v : Verdict) (detail : Nat) (s : State) : FollowedBy s (complete v detail s) := by
  unfold complete
  split
  · exact followedBy_refl s
  · exact followedBy_of_eq rfl

theorem requestBody_followedBy (b : Block) (s : State) : FollowedBy s (requestBody b s) :=
  followedBy_of_eq rfl

theorem requestSource_followedBy (b : Block) (got : List Byte) (s : State) :
    FollowedBy s (requestSource b got s) := followedBy_of_eq rfl

theorem goInFlight_followedBy (f : Flight) (s : State) : FollowedBy s (goInFlight f s) := followedBy_of_eq rfl

theorem requestGrantWrite_followedBy (b : Block) (n : Nat) (left : List (Nat × Reason)) (s : State) :
    FollowedBy s (requestGrantWrite b n left s) := by
  unfold requestGrantWrite
  split <;> exact followedBy_of_eq rfl

/-! ## The writers -/

@[simp] theorem Per.get_set_same {α : Type} (p : Per α) (a : α) (st : Stream) : (p.set a st).get st = a := by
  cases st <;> rfl

theorem Per.get_set_other {α : Type} (p : Per α) (a : α) {st other : Stream} (h : other ≠ st) :
    (p.set a st).get other = p.get other := by
  cases st <;> cases other <;> first | rfl | exact absurd rfl h

@[simp] theorem Quad.get_set_same {α : Type} (q : Quad α) (a : α) (r : Requester) : (q.set a r).get r = a := by
  cases r <;> rfl

theorem Quad.get_set_other {α : Type} (q : Quad α) (a : α) {r other : Requester} (h : other ≠ r) :
    (q.set a r).get other = q.get other := by
  cases r <;> cases other <;> first | rfl | exact absurd rfl h

@[simp] theorem writer_putWriter_same (st : Stream) (w : Writer) (s : State) :
    (putWriter st w s).writer st = w := by simp [State.writer, putWriter]

theorem putWriter_followedBy (st : Stream) (w : Writer) (s : State) : FollowedBy s (putWriter st w s) :=
  followedBy_of_eq rfl

theorem handResult_followedBy (r : Result) (s : State) : FollowedBy s (handResult r s) := followedBy_of_eq rfl

theorem refreshBelow_followedBy (st : Stream) (s : State) : FollowedBy s (refreshBelow st s) :=
  followedBy_trans (putWriter_followedBy st _ s) (raiseIf_followedBy (low_mem st) _ _)

theorem putSegments_followedBy (st : Stream) (l : List Segment) (s : State) :
    FollowedBy s (putSegments st l s) :=
  followedBy_trans (putWriter_followedBy st _ s) (refreshBelow_followedBy st _)

theorem closeSegment_followedBy (st : Stream) (r : Reason) (s : State) : FollowedBy s (closeSegment st r s) := by
  unfold closeSegment
  dsimp only
  split
  · exact followedBy_refl s
  · exact followedBy_of_eq rfl

theorem closeUndone_followedBy (st : Stream) (r : Reason) (n : Nat) (s : State) :
    FollowedBy s (closeUndone st r n s) := by
  unfold closeUndone
  dsimp only
  split
  · exact followedBy_refl s
  · exact followedBy_of_eq rfl

theorem returnUnused_followedBy (st : Stream) (r : Reason) (c : Bool) (s : State) :
    FollowedBy s (returnUnused st r c s) := by
  unfold returnUnused
  split
  · exact followedBy_refl s
  · exact followedBy_trans (putSegments_followedBy st _ s) (handResult_followedBy _ _)

theorem advanceRelinquish_followedBy (st : Stream) (s : State) : FollowedBy s (advanceRelinquish st s) := by
  unfold advanceRelinquish
  split
  · exact followedBy_refl s
  · split
    · exact followedBy_refl s
    · split
      · exact followedBy_trans (putWriter_followedBy st _ s) (complete_followedBy _ _ _)
      · split
        · exact followedBy_refl s
        · exact returnUnused_followedBy st _ _ s

theorem advanceReset_followedBy (st : Stream) (s : State) : FollowedBy s (advanceReset st s) := by
  unfold advanceReset
  split
  · exact followedBy_refl s
  · split
    · exact closeUndone_followedBy st _ _ s
    · exact returnUnused_followedBy st _ _ s

theorem advanceReturns_followedBy (st : Stream) (s : State) : FollowedBy s (advanceReturns st s) := by
  unfold advanceReturns
  split
  · exact advanceReset_followedBy st s
  · exact advanceRelinquish_followedBy st s

theorem takeSegment_followedBy (st : Stream) (s : State) : FollowedBy s (takeSegment st s) := by
  unfold takeSegment
  dsimp only
  split
  · split
    · exact followedBy_refl s
    · exact followedBy_trans (putWriter_followedBy st _ s) (putSegments_followedBy st _ _)
  · exact followedBy_refl s

theorem requestWrite_followedBy (st : Stream) (s : State) : FollowedBy s (requestWrite st s) := by
  unfold requestWrite
  dsimp only
  split
  · split
    · exact requestBurst_followedBy _ _ s
    · exact followedBy_refl s
  · exact followedBy_refl s

theorem refreshState_followedBy (st : Stream) (s : State) : FollowedBy s (refreshState st s) :=
  followedBy_trans (putWriter_followedBy st _ s) (raiseIf_followedBy (starved_mem st) _ _)

theorem settleWriter_followedBy (st : Stream) (s : State) : FollowedBy s (settleWriter st s) :=
  followedBy_trans (advanceReturns_followedBy st s)
    (followedBy_trans (takeSegment_followedBy st _)
      (followedBy_trans (requestWrite_followedBy st _) (refreshState_followedBy st _)))

/-! ## Settling -/

theorem testDrained_followedBy (s : State) : FollowedBy s (testDrained s) := by
  unfold testDrained
  split
  · exact complete_followedBy _ _ s
  · exact followedBy_refl s

theorem pageRequest_followedBy (s : State) : FollowedBy s (pageRequest s) := by
  unfold pageRequest
  split
  · exact followedBy_refl s
  · split
    · split
      · exact followedBy_of_eq rfl
      · exact followedBy_refl s
    · split <;> exact followedBy_of_eq rfl

theorem grantPort_followedBy (s : State) : FollowedBy s (grantPort s) := by
  unfold grantPort
  split
  · exact followedBy_refl s
  · split
    · exact followedBy_refl s
    · dsimp only
      split <;> exact followedBy_of_eq rfl

/-- Everything that settling can do. -/
theorem settle_followedBy (s : State) : FollowedBy s (settle s) :=
  followedBy_trans (settleWriter_followedBy .master s)
    (followedBy_trans (settleWriter_followedBy .proxy _)
      (followedBy_trans (testDrained_followedBy _)
        (followedBy_trans (pageRequest_followedBy _) (grantPort_followedBy _))))

theorem goOrAbandon_followedBy (f : Flight) (s : State) : FollowedBy s (goOrAbandon f s) := by
  unfold goOrAbandon
  split
  · exact complete_followedBy _ _ s
  · exact goInFlight_followedBy f s

/-! ## The walker under settling -/

/-- Settling leaves the walker's record, and no RELINQUISH begins, where none is in hand and no WAIT for
DRAINED is in flight. -/
structure WalkerStill (s t : State) : Prop where
  walker : t.walker = s.walker
  relinquish : NoRelinquish t

theorem walkerStill_trans {s t u : State} (h : WalkerStill s t) (k : WalkerStill t u) : WalkerStill s u :=
  ⟨k.walker.trans h.walker, k.relinquish⟩

theorem walkerStill_raiseIf {s t : State} (h : WalkerStill s t) (b : Bool) (n : Notice) :
    WalkerStill s (raiseIf b n t) := by
  cases b with
  | false => exact h
  | true => exact ⟨h.walker, h.relinquish⟩

theorem walkerStill_putWriter {s t : State} (h : WalkerStill s t) (st : Stream) (w : Writer)
    (hw : w.relinquish = none) : WalkerStill s (putWriter st w t) := by
  refine ⟨h.walker, fun o => ?_⟩
  by_cases e : o = st
  · subst e; rw [writer_putWriter_same]; exact hw
  · have : (putWriter st w t).writer o = t.writer o := Per.get_set_other _ _ e
    rw [this]; exact h.relinquish o

theorem walkerStill_of_streams {s t u : State} (h : WalkerStill s t) (w : u.walker = t.walker)
    (r : u.writers.streams = t.writers.streams) : WalkerStill s u :=
  ⟨w.trans h.walker, fun o => by simpa [State.writer, r] using h.relinquish o⟩

theorem walkerStill_putSegments {s t : State} (h : WalkerStill s t) (st : Stream) (l : List Segment) :
    WalkerStill s (putSegments st l t) := by
  have first := walkerStill_putWriter h st { t.writer st with segments := l } (h.relinquish st)
  exact walkerStill_raiseIf (walkerStill_putWriter first st _ (by simpa using h.relinquish st)) _ _

theorem closeUndone_still {s t : State} (h : WalkerStill s t) (st : Stream) (r : Reason) (n : Nat) :
    WalkerStill s (closeUndone st r n t) := by
  unfold closeUndone
  dsimp only
  split
  · exact h
  · exact walkerStill_of_streams
      (walkerStill_putWriter h st { t.writer st with
          current := none, relinquish := closeDone (t.writer st) }
        (by simp [closeDone, h.relinquish st])) rfl rfl

theorem returnUnused_still {s t : State} (h : WalkerStill s t) (st : Stream) (r : Reason) (c : Bool) :
    WalkerStill s (returnUnused st r c t) := by
  unfold returnUnused
  split
  · exact h
  · exact walkerStill_of_streams (walkerStill_putSegments h st _) rfl rfl

theorem advanceReturns_still {s t : State} (h : WalkerStill s t) (st : Stream) :
    WalkerStill s (advanceReturns st t) := by
  unfold advanceReturns
  split
  · unfold advanceReset
    split
    · exact h
    · split
      · exact closeUndone_still h st _ _
      · exact returnUnused_still h st _ _
  · unfold advanceRelinquish
    simp only [h.relinquish st]
    exact h

theorem takeSegment_still {s t : State} (h : WalkerStill s t) (st : Stream) :
    WalkerStill s (takeSegment st t) := by
  unfold takeSegment
  dsimp only
  split
  · split
    · exact h
    · exact walkerStill_putSegments
        (walkerStill_putWriter h st _ (by simpa using h.relinquish st)) st _
  · exact h

theorem requestWrite_still {s t : State} (h : WalkerStill s t) (st : Stream) :
    WalkerStill s (requestWrite st t) := by
  unfold requestWrite
  dsimp only
  split
  · split
    · exact walkerStill_of_streams h rfl rfl
    · exact h
  · exact h

theorem refreshState_still {s t : State} (h : WalkerStill s t) (st : Stream) :
    WalkerStill s (refreshState st t) :=
  walkerStill_raiseIf (walkerStill_putWriter h st _ (by simpa using h.relinquish st)) _ _

theorem settleWriter_still {s t : State} (h : WalkerStill s t) (st : Stream) :
    WalkerStill s (settleWriter st t) :=
  refreshState_still (requestWrite_still (takeSegment_still (advanceReturns_still h st) st) st) st

theorem pageRequest_still {s t : State} (h : WalkerStill s t) : WalkerStill s (pageRequest t) := by
  unfold pageRequest
  split
  · exact h
  · split
    · split
      · exact walkerStill_of_streams h rfl rfl
      · exact h
    · split <;> exact walkerStill_of_streams h rfl rfl

theorem grantPort_still {s t : State} (h : WalkerStill s t) : WalkerStill s (grantPort t) := by
  unfold grantPort
  split
  · exact h
  · split
    · exact h
    · dsimp only
      split <;> exact walkerStill_of_streams h rfl rfl

/-- Where no RELINQUISH is in hand and no WAIT for DRAINED is in flight, settling leaves the walker's record
as it is. -/
theorem settle_walker (s : State) (r : NoRelinquish s) (f : s.flight ≠ some .drained) :
    (settle s).walker = s.walker := by
  have h := settleWriter_still (settleWriter_still ⟨rfl, r⟩ .master) .proxy
  have same : testDrained (settleWriter .proxy (settleWriter .master s))
      = settleWriter .proxy (settleWriter .master s) := by
    unfold testDrained
    have e : (settleWriter .proxy (settleWriter .master s)).flight = s.flight := by
      simp only [State.flight, h.walker]
    simp [e, f]
  show (grantPort (pageRequest (testDrained _))).walker = _
  rw [same]
  exact (grantPort_still (pageRequest_still h)).walker

end Sys2Proof.Laws
end

