-- ==== Sys2Proof/Laws/Following.lean ====
section
/-! SUPPORT. What settling does to a calm state: the writers, the Page Writer and the arbiter in turn, and
`settle_follows`. -/

namespace Sys2Proof.Laws

open Sys2Proof.Machine

/-! ## What a writer is offered -/

theorem offered_eq (st : Stream) (s : State) :
    offered st s = if offers st s = true then (s.entries st).head? else none := by
  unfold offered offers
  cases s.entries st with
  | nil => simp
  | cons e rest =>
    by_cases k : e.kind = .trailer
    · simp [k]
    · simp only [k, if_false, List.head?_cons, Option.any_some, Entry.allBelow, Entry.last, lastFrame, frameAfter]
      cases s.currentClip st with
      | none =>
        simp only [Option.map_none]
        by_cases h : e.clip = none <;> simp [k, h]
      | some c =>
        cases s.queue.intakeMarks.get (otherStream st) with
        | none => simp [k]
        | some m =>
          by_cases h : e.clip = some c.number <;> simp [k, h]

theorem offers_congr {s t : State} (q : t.queue = s.queue) (c : t.clips = s.clips) (st : Stream) :
    offers st t = offers st s := by
  simp only [offers, State.entries, State.currentClip, State.clipList, q, c]

theorem awaits_eq (st : Stream) (s : State) : awaitsResult st s = awaits st s := rfl

theorem writable_eq (s : State) : readyResult s = writable s := by
  unfold readyResult writable
  cases s.page.results with
  | nil => rfl
  | cons r rest =>
    cases s.walker.block with
    | none => simp [Option.filter]
    | some b => by_cases h : (b.granted && b.address == r.segment.block) = true <;> simp [h, Option.filter]

/-! ## One writer's settling -/

/-- A writer's settling in a calm state, from `s` to `t`: what it leaves, and what it does. -/
structure SettlesOne (st : Stream) (s t : State) : Prop where
  walker : t.walker = s.walker
  page : t.page = { s.page with owed := t.page.owed }
  owed : t.page.owed = (s.page.owed || (s.page.address.isSome &&
    (((t.writer st).belowWatermark && !(s.writer st).belowWatermark)
      || ((t.writer st).state == .starved && !(s.writer st).spell))))
  writer : WriterFollows (s.writer st) (t.writer st)
  other : t.writer (otherStream st) = s.writer (otherStream st)
  arbiter : t.arbiter = { s.arbiter with bursts := t.arbiter.bursts, attempts := t.arbiter.attempts }
  bursts : ∀ r, r ≠ writerRequester st → t.arbiter.bursts.get r = s.arbiter.bursts.get r
    ∧ t.arbiter.attempts.get r = s.arbiter.attempts.get r
  waiting : ∀ b, s.arbiter.bursts.get (writerRequester st) = some b →
    t.arbiter.bursts.get (writerRequester st) = some b
      ∧ t.arbiter.attempts.get (writerRequester st) = s.arbiter.attempts.get (writerRequester st)
  pending : ∀ n, n ≠ .low st → n ≠ .starved st → t.isPending n = s.isPending n
  acts : WriterActs st s t

theorem other_ne (st : Stream) : otherStream st ≠ st := by cases st <;> decide

@[simp] theorem writer_raiseIf (b : Bool) (n : Notice) (s : State) (st : Stream) :
    (raiseIf b n s).writer st = s.writer st := by cases b <;> rfl

@[simp] theorem writer_putWriter_other (st : Stream) (w : Writer) (s : State) :
    (putWriter st w s).writer (otherStream st) = s.writer (otherStream st) :=
  Per.get_set_other _ _ (other_ne st)

@[simp] theorem walker_raiseIf (b : Bool) (n : Notice) (s : State) : (raiseIf b n s).walker = s.walker := by
  cases b <;> rfl

@[simp] theorem arbiter_raiseIf (b : Bool) (n : Notice) (s : State) : (raiseIf b n s).arbiter = s.arbiter := by
  cases b <;> rfl

@[simp] theorem queue_raiseIf (b : Bool) (n : Notice) (s : State) : (raiseIf b n s).queue = s.queue := by
  cases b <;> rfl

@[simp] theorem clips_raiseIf (b : Bool) (n : Notice) (s : State) : (raiseIf b n s).clips = s.clips := by
  cases b <;> rfl

theorem page_raiseIf (b : Bool) (n : Notice) (s : State) :
    (raiseIf b n s).page = { s.page with owed := s.page.owed || (s.page.address.isSome && b) } := by
  cases b <;> simp [raiseIf, raise, oweRewrite]

theorem isPending_raiseIf (b : Bool) (m n : Notice) (s : State) :
    (raiseIf b n s).isPending m = (s.isPending m || (b && decide (m = n))) := by
  cases b <;> simp [raiseIf, isPending_raise]

theorem putWriter_self (st : Stream) (s : State) : putWriter st (s.writer st) s = s := by cases st <;> rfl

theorem putWriter_putWriter (st : Stream) (v w : Writer) (s : State) :
    putWriter st v (putWriter st w s) = putWriter st v s := by cases st <;> rfl

/-- The writer after the segment that R123 lets it take. -/
def afterTake (st : Stream) (s : State) : Writer :=
  let w := s.writer st
  match w.segments with
  | g :: rest =>
    if offers st s = true ∧ w.current = none ∧ awaits st s = false then
      { w with
        segments := rest
        current := some ⟨g, 0, none, none, none, 0, w.written != 0⟩
        spell := false
        belowWatermark := decide (s.writers.watermark ≠ 0 ∧ rest.length < s.writers.watermark) }
    else w
  | [] => w

theorem takeSegment_eq (st : Stream) (s : State) (h : (s.writer st).relinquish = none)
    (n : s.walker.state ≠ .resetting) : takeSegment st s =
      raiseIf ((afterTake st s).belowWatermark && !(s.writer st).belowWatermark) (.low st)
        (putWriter st (afterTake st s) s) := by
  have o : (offered st s).isSome = true ↔ offers st s = true := by
    rw [offered_eq]
    by_cases k : offers st s = true
    · simp only [k, if_true, iff_true]
      unfold offers at k
      cases e : (s.entries st).head? with
      | none => simp [e] at k
      | some _ => rfl
    · simp [k]
  unfold takeSegment afterTake
  dsimp only
  have c : ((offered st s).isSome && (s.writer st).current.isNone && !awaitsResult st s
      && (s.writer st).relinquish.isNone && !s.resetting) = true
      ↔ offers st s = true ∧ (s.writer st).current = none ∧ awaits st s = false := by
    simp [o, h, n, State.resetting, awaits_eq, and_assoc]
  by_cases k : offers st s = true ∧ (s.writer st).current = none ∧ awaits st s = false
  · rw [if_pos (c.mpr k)]
    cases e : (s.writer st).segments with
    | nil => simp [raiseIf, putWriter_self]
    | cons g rest =>
      simp only [if_pos k, putSegments, refreshBelow, writer_putWriter_same, putWriter_putWriter]
      have b : decide (s.writers.watermark ≠ 0 ∧ rest.length < s.writers.watermark)
          = (s.writers.watermark != 0 && decide (rest.length < s.writers.watermark)) := by
        by_cases z : s.writers.watermark = 0 <;> simp [z]
      simp only [putWriter, b]
      rfl
  · rw [if_neg (fun x => k (c.mp x))]
    cases e : (s.writer st).segments with
    | nil => simp [raiseIf, putWriter_self]
    | cons g rest => simp [if_neg k, raiseIf, putWriter_self]

/-- The bursts that wait once the writer has asked for its own (R126). -/
def afterRequest (st : Stream) (s : State) : Option Burst × Nat :=
  let w := afterTake st s
  match (s.entries st).head?, w.current with
  | some e, some c =>
    if offers st s = true ∧ w.gapTimer = none ∧ s.arbiter.bursts.get (writerRequester st) = none then
      let address := c.segment.start + c.position
      let length := min (min (e.size - w.written) (c.segment.length - c.position)) (4096 - address % 4096)
      (some ⟨.entry, address, length, (List.range length).map fun k => writtenByte e (w.written + k)⟩, 0)
    else (s.arbiter.bursts.get (writerRequester st), s.arbiter.attempts.get (writerRequester st))
  | _, _ => (s.arbiter.bursts.get (writerRequester st), s.arbiter.attempts.get (writerRequester st))

theorem Quad.set_get {α : Type} (q : Quad α) (r : Requester) : q.set (q.get r) r = q := by cases r <;> rfl

theorem advanceReturns_calm (st : Stream) (s : State) (h : (s.writer st).relinquish = none)
    (n : s.walker.state ≠ .resetting) : advanceReturns st s = s := by
  unfold advanceReturns advanceRelinquish
  simp [State.resetting, n, h]

theorem requestWrite_eq (st : Stream) (s u : State) (w : u.writer st = afterTake st s) (q : u.queue = s.queue)
    (c : u.clips = s.clips) (a : u.arbiter = s.arbiter) (n : u.walker.state ≠ .resetting) :
    requestWrite st u = { u with arbiter := { u.arbiter with
      bursts := u.arbiter.bursts.set (afterRequest st s).1 (writerRequester st)
      attempts := u.arbiter.attempts.set (afterRequest st s).2 (writerRequester st) } } := by
  have e : u.entries st = s.entries st := by simp only [State.entries, q]
  have same : u = { u with arbiter := { u.arbiter with
      bursts := u.arbiter.bursts.set (s.arbiter.bursts.get (writerRequester st)) (writerRequester st)
      attempts := u.arbiter.attempts.set (s.arbiter.attempts.get (writerRequester st)) (writerRequester st) } } := by
    rw [← a, Quad.set_get, Quad.set_get]
  unfold requestWrite afterRequest
  rw [offered_eq, offers_congr q c, e, w, a]
  dsimp only
  cases h : (s.entries st).head? with
  | none =>
    have : (if offers st s = true then (none : Option Entry) else none) = none := by split <;> rfl
    rw [this]
    exact same.trans (by rw [a])
  | some x =>
    cases k : (afterTake st s).current with
    | none =>
      by_cases o : offers st s = true
      · simp only [o, if_true]
        exact same.trans (by rw [a])
      · simp only [o]
        exact same.trans (by rw [a])
    | some y =>
      by_cases o : offers st s = true
      · simp only [o, if_true, true_and]
        by_cases g : (afterTake st s).gapTimer = none ∧ s.arbiter.bursts.get (writerRequester st) = none
        · have t : ((afterTake st s).gapTimer.isNone && (s.arbiter.bursts.get (writerRequester st)).isNone
              && !u.resetting) = true := by simp [g, State.resetting, n]
          rw [if_pos t, if_pos g]
          simp only [requestBurst, writerBurst, burstLength, entryBytes, entryByte_eq, a]
        · have t : ¬ ((afterTake st s).gapTimer.isNone && (s.arbiter.bursts.get (writerRequester st)).isNone
              && !u.resetting) = true := by
            simp only [Bool.and_eq_true, Option.isNone_iff_eq_none]
            exact fun x => g x.1
          rw [if_neg t, if_neg g]
          exact same.trans (by rw [a])
      · simp only [o, if_false, false_and, Bool.false_eq_true]
        exact same.trans (by rw [a])

theorem settleWriter_eq (st : Stream) (s : State) (h : (s.writer st).relinquish = none)
    (n : s.walker.state ≠ .resetting) : ∃ u v, settleWriter st s = refreshState st v
      ∧ u = raiseIf ((afterTake st s).belowWatermark && !(s.writer st).belowWatermark) (.low st)
        (putWriter st (afterTake st s) s)
      ∧ v = { u with arbiter := { u.arbiter with
        bursts := u.arbiter.bursts.set (afterRequest st s).1 (writerRequester st)
        attempts := u.arbiter.attempts.set (afterRequest st s).2 (writerRequester st) } } := by
  refine ⟨_, _, ?_, rfl, rfl⟩
  unfold settleWriter
  rw [advanceReturns_calm st s h n, takeSegment_eq st s h n]
  rw [requestWrite_eq st s _ (by simp) (by simp [putWriter]) (by simp [putWriter]) (by simp [putWriter])
    (by simpa [putWriter] using n)]

theorem afterTake_cases (st : Stream) (s : State) :
    (afterTake st s = s.writer st ∧ (offers st s = false ∨ (s.writer st).current ≠ none ∨ awaits st s = true
      ∨ (s.writer st).segments = []))
    ∨ ∃ g rest, (s.writer st).segments = g :: rest ∧ offers st s = true ∧ (s.writer st).current = none
      ∧ awaits st s = false ∧ afterTake st s = { s.writer st with
        segments := rest
        current := some ⟨g, 0, none, none, none, 0, (s.writer st).written != 0⟩
        spell := false
        belowWatermark := decide (s.writers.watermark ≠ 0 ∧ rest.length < s.writers.watermark) } := by
  unfold afterTake
  dsimp only
  cases e : (s.writer st).segments with
  | nil => exact Or.inl ⟨rfl, Or.inr (Or.inr (Or.inr rfl))⟩
  | cons g rest =>
    by_cases k : offers st s = true ∧ (s.writer st).current = none ∧ awaits st s = false
    · exact Or.inr ⟨g, rest, rfl, k.1, k.2.1, k.2.2, by simp [k]⟩
    · refine Or.inl ⟨by simp [k], ?_⟩
      by_cases o : offers st s = true
      · by_cases c : (s.writer st).current = none
        · exact Or.inr (Or.inr (Or.inl (by simpa [o, c] using k)))
        · exact Or.inr (Or.inl c)
      · exact Or.inl (by simpa using o)

/-- The burst that a writer has after it has asked: its own, a new one, or none. -/
theorem afterRequest_cases (st : Stream) (s : State) :
    (∃ b, s.arbiter.bursts.get (writerRequester st) = some b
      ∧ afterRequest st s = (some b, s.arbiter.attempts.get (writerRequester st)))
    ∨ (s.arbiter.bursts.get (writerRequester st) = none ∧ 
      (afterRequest st s = (none, s.arbiter.attempts.get (writerRequester st))
        ∧ (offers st s = false ∨ (afterTake st s).current = none ∨ (s.writer st).gapTimer ≠ none)
      ∨ ∃ e c, (s.entries st).head? = some e ∧ (afterTake st s).current = some c ∧ offers st s = true
        ∧ (s.writer st).gapTimer = none ∧
        (let address := c.segment.start + c.position
        let length := min (min (e.size - (s.writer st).written) (c.segment.length - c.position))
          (4096 - address % 4096)
        afterRequest st s = (some ⟨.entry, address, length,
          (List.range length).map fun k => writtenByte e ((s.writer st).written + k)⟩, 0)))) := by
  have gap : (afterTake st s).gapTimer = (s.writer st).gapTimer := by
    rcases afterTake_cases st s with ⟨h, _⟩ | ⟨g, rest, _, _, _, _, h⟩ <;> rw [h]
  have written : (afterTake st s).written = (s.writer st).written := by
    rcases afterTake_cases st s with ⟨h, _⟩ | ⟨g, rest, _, _, _, _, h⟩ <;> rw [h]
  cases b : s.arbiter.bursts.get (writerRequester st) with
  | some x =>
    left
    refine ⟨x, rfl, ?_⟩
    unfold afterRequest
    dsimp only
    split
    · simp [b]
    · simp [b]
  | none =>
    right
    refine ⟨rfl, ?_⟩
    cases h : (s.entries st).head? with
    | none =>
      left
      refine ⟨by unfold afterRequest; simp [h, b], Or.inl ?_⟩
      unfold offers
      simp [h]
    | some e =>
      cases k : (afterTake st s).current with
      | none => exact Or.inl ⟨by unfold afterRequest; simp [k, b], Or.inr (Or.inl rfl)⟩
      | some c =>
        by_cases o : offers st s = true ∧ (s.writer st).gapTimer = none
        · right
          refine ⟨e, c, rfl, rfl, o.1, o.2, ?_⟩
          unfold afterRequest
          simp [h, k, b, o, gap, written]
        · left
          refine ⟨?_, ?_⟩
          · unfold afterRequest
            have : ¬ (offers st s = true ∧ (afterTake st s).gapTimer = none) := by rw [gap]; exact o
            simp [h, k, b, this]
          · by_cases x : offers st s = true
            · exact Or.inr (Or.inr fun y => o ⟨x, y⟩)
            · exact Or.inl (by simpa using x)

/-- The writer state of R122's table. -/
theorem writerState_eq (st : Stream) (s v : State) (r : (s.writer st).relinquish = none)
    (vw : v.writer st = afterTake st s) (vq : v.queue = s.queue) (vc : v.clips = s.clips)
    (vr : v.page.results = s.page.results) : writerState st v =
      if (s.writer st).gapTimer ≠ none then .gap
      else if (v.arbiter.bursts.get (writerRequester st)).isSome = true ∨ awaits st s = true
          ∨ (offers st s = true ∧ (afterTake st s).current ≠ none) then .writing
      else if offers st s = true ∧ (afterTake st s).segments = [] then .starved
      else .idle := by
  have o : (offered st v).isSome = offers st s := by
    rw [← offers_congr vq vc, offered_eq]
    by_cases k : offers st v = true
    · simp only [k, if_true]
      unfold offers at k
      cases e : (v.entries st).head? with
      | none => simp [e] at k
      | some _ => rfl
    · simp [k]
  have a : awaitsResult st v = awaits st s := by simp only [awaitsResult, awaits, vr]
  have gap : (afterTake st s).gapTimer = (s.writer st).gapTimer := by
    rcases afterTake_cases st s with ⟨h, _⟩ | ⟨g, rest, _, _, _, _, h⟩ <;> rw [h]
  have rel : (afterTake st s).relinquish = none := by
    rcases afterTake_cases st s with ⟨h, _⟩ | ⟨g, rest, _, _, _, _, h⟩ <;> rw [h] <;> exact r
  unfold writerState
  dsimp only
  rw [o, a, vw, gap, rel]
  cases (s.writer st).gapTimer with
  | some _ => simp
  | none =>
    cases offers st s <;> cases awaits st s <;> cases (afterTake st s).current
      <;> cases (v.arbiter.bursts.get (writerRequester st)).isSome <;> simp

/-- One writer's settling without the returns of a RELINQUISH or an engine reset. -/
theorem settleWriter_one (st : Stream) (s : State) (h : (s.writer st).relinquish = none)
    (n : s.walker.state ≠ .resetting) : SettlesOne st s (settleWriter st s) := by
  obtain ⟨u, v, e, hu, hv⟩ := settleWriter_eq st s h n
  rw [e]
  generalize hr : ((afterTake st s).belowWatermark && !(s.writer st).belowWatermark) = rise at hu
  have vw : v.writer st = afterTake st s := by rw [hv]; show u.writer st = _; rw [hu]; simp
  have vo : v.writer (otherStream st) = s.writer (otherStream st) := by
    rw [hv]; show u.writer _ = _; rw [hu]; simp
  have va : v.arbiter = { s.arbiter with
      bursts := s.arbiter.bursts.set (afterRequest st s).1 (writerRequester st)
      attempts := s.arbiter.attempts.set (afterRequest st s).2 (writerRequester st) } := by
    rw [hv]; dsimp only; rw [hu]; simp [putWriter]
  have vq : v.queue = s.queue := by rw [hv]; dsimp only; rw [hu]; simp [putWriter]
  have vc : v.clips = s.clips := by rw [hv]; dsimp only; rw [hu]; simp [putWriter]
  have vk : v.walker = s.walker := by rw [hv]; dsimp only; rw [hu]; simp [putWriter]
  have vp : v.page = { s.page with owed := s.page.owed || (s.page.address.isSome && rise) } := by
    rw [hv]; dsimp only; rw [hu, page_raiseIf]; rfl
  have vn : ∀ m, v.isPending m = (s.isPending m || (rise && decide (m = .low st))) := fun m => by
    rw [hv]; show u.isPending m = _; rw [hu, isPending_raiseIf]; rfl
  clear hu hv e
  have now := writerState_eq st s v h vw vq vc (by rw [vp])
  unfold refreshState
  dsimp only
  rw [vw]
  generalize writerState st v = state at now ⊢
  have bursts : v.arbiter.bursts.get (writerRequester st) = (afterRequest st s).1 := by rw [va]; simp
  have attempts : v.arbiter.attempts.get (writerRequester st) = (afterRequest st s).2 := by rw [va]; simp
  rw [bursts] at now
  -- a writer that has taken a segment is not STARVED
  have still : (state == .starved) = true → afterTake st s = s.writer st := by
    intro x
    rcases afterTake_cases st s with ⟨k, _⟩ | ⟨g, rest, _, o, _, _, k⟩
    · exact k
    · rw [now, k] at x
      simp only [o] at x
      split at x <;> [exact absurd x (by decide); skip]
      split at x
      · exact absurd x (by decide)
      · rename_i y; exact absurd (Or.inr (Or.inr ⟨trivial, by simp⟩)) y
  have begins : (state == .starved && !(afterTake st s).spell) = (state == .starved && !(s.writer st).spell) := by
    by_cases x : (state == .starved) = true
    · rw [still x]
    · simp [x]
  rw [begins]
  have spell : ((afterTake st s).spell || (state == .starved && !(s.writer st).spell))
      = (state == .starved || ((s.writer st).spell && (afterTake st s).segments == (s.writer st).segments)) := by
    rcases afterTake_cases st s with ⟨k, _⟩ | ⟨g, rest, seg, _, _, _, k⟩
    · rw [k]; cases (state == WriterState.starved) <;> cases (s.writer st).spell <;> simp
    · have x : (state == .starved) = false := by
        by_contra y
        have := still (by simpa using y)
        rw [k] at this
        have z := congrArg Writer.segments this
        simp [seg] at z
      rw [k, x, seg]
      simp
  have below : (afterTake st s).belowWatermark =
      if (afterTake st s).segments = (s.writer st).segments then (s.writer st).belowWatermark
      else decide (s.writers.watermark ≠ 0 ∧ (afterTake st s).segments.length < s.writers.watermark) := by
    rcases afterTake_cases st s with ⟨k, _⟩ | ⟨g, rest, seg, _, _, _, k⟩
    · rw [k]; simp
    · rw [k, seg]; simp
  generalize hw : ({ afterTake st s with
    state := state
    spell := (afterTake st s).spell || (state == .starved && !(s.writer st).spell)
    spells := if (state == .starved && !(s.writer st).spell) = true then
        countUp countMax (afterTake st s).spells 1 else (afterTake st s).spells } : Writer) = w
  generalize ht : raiseIf (state == .starved && !(s.writer st).spell) (.starved st) (putWriter st w v) = t
  have tw : t.writer st = w := by rw [← ht]; simp
  have rest_ : t.writer (otherStream st) = s.writer (otherStream st) := by rw [← ht]; simpa using vo
  have ta : t.arbiter = v.arbiter := by rw [← ht]; simp [putWriter]
  have tk : t.walker = s.walker := by rw [← ht]; simpa [putWriter] using vk
  have tp : t.page = { s.page with owed := s.page.owed || (s.page.address.isSome &&
      (rise || (state == .starved && !(s.writer st).spell))) } := by
    rw [← ht, page_raiseIf]
    simp only [putWriter, vp, Bool.or_assoc, Bool.and_or_distrib_left]
  have tn : ∀ m, t.isPending m = (s.isPending m || (rise && decide (m = .low st))
      || (state == .starved && !(s.writer st).spell && decide (m = .starved st))) := fun m => by
    rw [← ht, isPending_raiseIf]
    show (v.isPending m || _) = _
    rw [vn]
  clear ht
  have wl : w.segments = (afterTake st s).segments := by rw [← hw]
  have wc : w.current = (afterTake st s).current := by rw [← hw]
  have wb : w.belowWatermark = (afterTake st s).belowWatermark := by rw [← hw]
  have ws : w.state = state := by rw [← hw]
  have bursts' : t.arbiter.bursts.get (writerRequester st) = (afterRequest st s).1 := by rw [ta, bursts]
  have attempts' : t.arbiter.attempts.get (writerRequester st) = (afterRequest st s).2 := by rw [ta, attempts]
  refine ⟨tk, by rw [tp], ?_, ?_, rest_, by rw [ta, va], ?_, ?_, ?_, ?_⟩
  · rw [tp, tw, wb, ws, hr]
  · rw [tw]
    have kept : w.written = (s.writer st).written ∧ w.gapCount = (s.writer st).gapCount
        ∧ w.gapTimer = (s.writer st).gapTimer ∧ w.relinquish = (s.writer st).relinquish
        ∧ (afterTake st s).spells = (s.writer st).spells := by
      rcases afterTake_cases st s with ⟨k, _⟩ | ⟨g, rest, _, _, _, _, k⟩ <;> rw [← hw, k] <;> simp
    refine ⟨kept.1, kept.2.1, kept.2.2.1, kept.2.2.2.1, ?_, ?_⟩
    · rw [wl, wc]
      rcases afterTake_cases st s with ⟨k, _⟩ | ⟨g, rest, seg, _, c, _, k⟩
      · rw [k]; exact Or.inl ⟨rfl, rfl⟩
      · rw [k]; exact Or.inr ⟨g, rest, seg, c, rfl, rfl⟩
    · rw [← hw]
      dsimp only
      rw [kept.2.2.2.2]
      split
      · exact Or.inr rfl
      · exact Or.inl rfl
  · intro r hr
    rw [ta, va]
    dsimp only
    rw [Quad.get_set_other _ _ hr, Quad.get_set_other _ _ hr]
    exact ⟨rfl, rfl⟩
  · intro b hb
    rw [bursts', attempts']
    rcases afterRequest_cases st s with ⟨x, hx, k⟩ | ⟨k, _⟩
    · rw [hb] at hx; cases hx
      rw [k]
      exact ⟨rfl, rfl⟩
    · rw [hb] at k; cases k
  · intro m l x
    rw [tn]
    simp [l, x]
  · refine ⟨?_, ?_, ?_, ?_, ?_, ?_, ?_, ?_, ?_, ?_⟩
    · intro o c a g hg
      rw [tw, wl, wc]
      rcases afterTake_cases st s with ⟨k, y⟩ | ⟨g', rest, seg, _, _, _, k⟩
      · rcases y with y | y | y | y
        · rw [o] at y; cases y
        · exact absurd c y
        · rw [a] at y; cases y
        · rw [y] at hg; cases hg
      · rw [seg] at hg; cases hg
        rw [k, seg]
        exact ⟨rfl, rfl⟩
    · intro y
      rw [tw, wl, wc]
      rcases afterTake_cases st s with ⟨k, _⟩ | ⟨g', rest, seg, o, c, a, k⟩
      · rw [k]; exact ⟨rfl, rfl⟩
      · rcases y with y | y | y | y
        · rw [o] at y; cases y
        · exact absurd c y
        · rw [a] at y; cases y
        · rw [y] at seg; cases seg
    · rw [tw, wb, wl]; exact below
    · rw [tn, tw, wb, hr]
      simp
    · rw [tw, ws, wc, wl, bursts']; exact now
    · rw [tw, ws, wl, ← spell, ← hw]
    · rw [tw, ws, ← hw]
      dsimp only
      have : (afterTake st s).spells = (s.writer st).spells := by
        rcases afterTake_cases st s with ⟨k, _⟩ | ⟨g, rest, _, _, _, _, k⟩ <;> rw [k]
      rw [this]
      by_cases a : state = .starved <;> cases (s.writer st).spell <;> simp [a, countUp, countMax]
    · rw [tn, tw, ws]
      simp
    · intro e he c hc o g b
      rw [tw, wc] at hc
      rw [bursts', attempts']
      rcases afterRequest_cases st s with ⟨x, hx, k⟩ | ⟨_, ⟨_, y⟩ | ⟨e', c', he', hc', _, _, k⟩⟩
      · rw [b] at hx; cases hx
      · rcases y with y | y | y
        · rw [o] at y; cases y
        · rw [y] at hc; cases hc
        · exact absurd g y
      · rw [he'] at he; cases he
        rw [hc'] at hc; cases hc
        dsimp only at k ⊢
        rw [k]
        exact ⟨rfl, rfl⟩
    · intro y
      rw [tw, wc] at y
      rw [bursts']
      rcases afterRequest_cases st s with ⟨x, hx, k⟩ | ⟨hx, ⟨k, _⟩ | ⟨e', c', he', hc', o, g, k⟩⟩
      · rw [k, hx]
      · rw [k, hx]
      · rcases y with y | y | y
        · rw [o] at y; cases y
        · rw [y] at hc'; cases hc'
        · exact absurd g y

/-! ## The port's grant -/

theorem ring_all (p r : Requester) : r ∈ ringAfter p := by cases p <;> cases r <;> decide

theorem ring_turns (p : Requester) : (ringAfter p).Pairwise fun a b => turn p a < turn p b := by
  cases p <;> decide

/-- The arbiter's choice: the HIGH requesters first, then by place in the ring (R135). -/
theorem chosen_some {a : Arbiter} {r : Requester} (h : chosen a = some r) :
    (a.bursts.get r).isSome = true ∧ ∀ q, q ≠ r → (a.bursts.get q).isSome = true →
      (a.high.get r = true ∧ a.high.get q = false)
        ∨ (a.high.get r = a.high.get q ∧ turn a.position r < turn a.position q) := by
  unfold chosen at h
  dsimp only at h
  have sorted : ((ringAfter a.position).filter fun r => (a.bursts.get r).isSome).Pairwise
      fun x y => turn a.position x < turn a.position y := (ring_turns _).filter _
  have mem : ∀ q, (a.bursts.get q).isSome = true
      ↔ q ∈ (ringAfter a.position).filter fun r => (a.bursts.get r).isSome := fun q => by
    simp [ring_all]
  generalize (ringAfter a.position).filter (fun r => (a.bursts.get r).isSome) = list at h sorted mem
  split at h
  · rename_i x found
    cases h
    obtain ⟨high, before, after, e, low⟩ := List.find?_eq_some_iff_append.mp found
    subst e
    refine ⟨(mem r).mpr (by simp), fun q ne w => ?_⟩
    have q' := (mem q).mp w
    rw [List.mem_append, List.mem_cons] at q'
    rcases q' with x | x | x
    · left
      have := low q x
      simp only [Bool.not_eq_true'] at this
      exact ⟨high, this⟩
    · exact absurd x ne
    · have lt := (List.pairwise_cons.mp (List.pairwise_append.mp sorted).2.1).1 q x
      cases hq : a.high.get q with
      | false => exact Or.inl ⟨high, rfl⟩
      | true => exact Or.inr ⟨high, lt⟩
  · rename_i none_
    cases list with
    | nil => cases h
    | cons x rest =>
      cases h
      refine ⟨(mem r).mpr (by simp), fun q ne w => ?_⟩
      have low := List.find?_eq_none.mp none_
      rcases List.mem_cons.mp ((mem q).mp w) with y | y
      · exact absurd y ne
      · right
        have hr := low r (by simp)
        have hq := low q (by simp [y])
        refine ⟨?_, (List.pairwise_cons.mp sorted).1 q y⟩
        rw [Bool.not_eq_true] at hr hq
        rw [hr, hq]

theorem chosen_none {a : Arbiter} (h : chosen a = none) (r : Requester) : a.bursts.get r = none := by
  unfold chosen at h
  dsimp only at h
  split at h
  · cases h
  · have e : (ringAfter a.position).filter (fun r => (a.bursts.get r).isSome) = [] := List.head?_eq_none_iff.mp h
    have := List.filter_eq_nil_iff.mp e r (ring_all _ _)
    simpa using this

/-- The free port's grant (R135), and the rewrite that begins with it (R185). -/
theorem grantPort_acts (s : State) : PortActs s (grantPort s) ∧ (grantPort s).arbiter.attempts = s.arbiter.attempts
    ∧ (∀ r, r ≠ .page → (grantPort s).arbiter.bursts.get r = s.arbiter.bursts.get r)
    ∧ ((grantPort s).page = s.page ∧ (grantPort s).arbiter.bursts = s.arbiter.bursts
        ∧ ¬ (s.arbiter.port = none ∧ (grantPort s).arbiter.port = some .page ∧ rewriteWaits s = true)
      ∨ s.arbiter.port = none ∧ (grantPort s).arbiter.port = some .page ∧ rewriteWaits s = true
        ∧ (grantPort s).page = { s.page with
          owed := false, begun := true, lastKind := .rewrite, sequence := s.page.sequence + 1 }
        ∧ (grantPort s).arbiter.bursts.page
          = some ⟨.rewrite, s.page.address.getD 0, 256, pageBytes (grantPort s)⟩) := by
  unfold grantPort
  split
  · rename_i h
    have ne : s.arbiter.port ≠ none := by
      intro e
      rw [e] at h
      cases h
    refine ⟨⟨fun _ => ⟨rfl, rfl⟩, fun e => absurd e ne, fun e => absurd e ne⟩, rfl, fun _ _ => rfl,
      Or.inl ⟨rfl, rfl, fun x => ne x.1⟩⟩
  · rename_i h
    have free : s.arbiter.port = none := by simpa using h
    split
    · rename_i c
      refine ⟨⟨fun e => absurd free e, fun _ => ⟨rfl, chosen_none c⟩, fun _ r hr => ?_⟩, rfl,
        fun _ _ => rfl, Or.inl ⟨rfl, rfl, fun x => ?_⟩⟩
      · rw [free] at hr; cases hr
      · rw [free] at x; cases x.2.1
    · rename_i r c
      obtain ⟨w, first⟩ := chosen_some c
      dsimp only
      split
      · rename_i k
        obtain ⟨rfl, rw_⟩ := k
        refine ⟨⟨fun e => absurd free e, fun e => ?_, fun _ r hr => ?_⟩, rfl, fun r e => ?_,
          Or.inr ⟨free, rfl, rw_, rfl, ?_⟩⟩
        · cases e
        · cases hr
          refine ⟨rfl, rfl, fun q ne hq => first q ne ?_⟩
          have : (beginRewrite { s with arbiter := { s.arbiter with port := some .page, position := .page } }).arbiter.bursts.get q
              = s.arbiter.bursts.get q := Quad.get_set_other _ _ ne
          rw [this] at hq
          exact hq
        · exact Quad.get_set_other _ _ e
        · have e : statusPage { s with
              arbiter := { s.arbiter with port := some .page, position := .page }
              page := { s.page with
                owed := false, begun := true, lastKind := .rewrite, sequence := s.page.sequence + 1 } }
              = pageBytes (beginRewrite { s with
                arbiter := { s.arbiter with port := some .page, position := .page } }) := by
            rw [← statusPage_eq]
            rfl
          rw [← e]
          rfl
      · rename_i k
        refine ⟨⟨fun e => absurd free e, fun e => ?_, fun _ q hq => ?_⟩, rfl, fun _ _ => rfl,
          Or.inl ⟨rfl, rfl, fun x => k ?_⟩⟩
        · cases e
        · cases hq
          exact ⟨rfl, w, first⟩
        · exact ⟨by have := x.2.1; simpa using this, x.2.2⟩

/-! ## The Page Writer's request -/

/-- The work that the Page Writer asks for (R187). -/
theorem pageRequest_cases (s : State) :
    (s.arbiter.bursts.page ≠ none ∧ pageRequest s = s)
    ∨ (s.arbiter.bursts.page = none ∧ mayRewrite s = true ∧ (writable s = none ∨ s.page.lastKind = .result)
      ∧ pageRequest s = requestRewrite s)
    ∨ (∃ r, s.arbiter.bursts.page = none ∧ writable s = some r
      ∧ (mayRewrite s = false ∨ s.page.lastKind = .rewrite) ∧ pageRequest s = requestResult r s)
    ∨ (s.arbiter.bursts.page = none ∧ writable s = none ∧ mayRewrite s = false ∧ pageRequest s = s) := by
  unfold pageRequest
  rw [writable_eq]
  cases b : s.arbiter.bursts.page with
  | some x => exact Or.inl ⟨by simp, by simp⟩
  | none =>
    right
    simp only [Option.isSome_none, Bool.false_eq_true, if_false]
    cases w : writable s with
    | none =>
      cases m : mayRewrite s with
      | true => exact Or.inl (by simp)
      | false => exact Or.inr (Or.inr (by simp))
    | some r =>
      cases m : mayRewrite s with
      | true =>
        cases k : s.page.lastKind with
        | result => exact Or.inl (by simp)
        | rewrite => exact Or.inr (Or.inl ⟨r, by simp⟩)
      | false => exact Or.inr (Or.inl ⟨r, by simp⟩)

/-- The Page Writer's request touches its own burst and record only. -/
theorem pageRequest_keeps (s : State) :
    (pageRequest s).walker = s.walker ∧ (pageRequest s).writers = s.writers
      ∧ (pageRequest s).notices = s.notices
      ∧ (pageRequest s).page.results = s.page.results ∧ (pageRequest s).page.owed = s.page.owed
      ∧ (pageRequest s).page.sequence = s.page.sequence ∧ (pageRequest s).page.address = s.page.address
      ∧ (pageRequest s).arbiter = { s.arbiter with
        bursts := (pageRequest s).arbiter.bursts, attempts := (pageRequest s).arbiter.attempts }
      ∧ ∀ r, r ≠ .page → (pageRequest s).arbiter.bursts.get r = s.arbiter.bursts.get r
        ∧ (pageRequest s).arbiter.attempts.get r = s.arbiter.attempts.get r := by
  rcases pageRequest_cases s with ⟨_, e⟩ | ⟨_, _, _, e⟩ | ⟨r, _, _, _, e⟩ | ⟨_, _, _, e⟩ <;> rw [e]
  · exact ⟨rfl, rfl, rfl, rfl, rfl, rfl, rfl, rfl, fun _ _ => ⟨rfl, rfl⟩⟩
  · exact ⟨rfl, rfl, rfl, rfl, rfl, rfl, rfl, rfl, fun q h => ⟨Quad.get_set_other _ _ h, Quad.get_set_other _ _ h⟩⟩
  · exact ⟨rfl, rfl, rfl, rfl, rfl, rfl, rfl, rfl, fun q h => ⟨Quad.get_set_other _ _ h, Quad.get_set_other _ _ h⟩⟩
  · exact ⟨rfl, rfl, rfl, rfl, rfl, rfl, rfl, rfl, fun _ _ => ⟨rfl, rfl⟩⟩

/-- The Page Writer's part of settling: the request and the grant, from a state whose writers have settled. -/
theorem grant_acts (s v : State) (o : owes s (grantPort (pageRequest v)) = v.page.owed)
    (page : v.page = { s.page with owed := v.page.owed }) (burst : v.arbiter.bursts.page = s.arbiter.bursts.page)
    (attempt : v.arbiter.attempts.page = s.arbiter.attempts.page) (port : v.arbiter.port = s.arbiter.port)
    (freeze : v.notices.freeze = s.notices.freeze) (walker : v.walker = s.walker) :
    PageActs s (grantPort (pageRequest v)) := by
  have w : writable v = writable s := by
    have : v.page.results = s.page.results := by rw [page]
    simp only [writable, this, walker]
  have may : mayRewrite v = (v.page.owed && !s.notices.freeze && s.page.address.isSome) := by
    have : v.page.address = s.page.address := by rw [page]
    simp only [mayRewrite, freeze, this]
  have kinds : v.page.lastKind = s.page.lastKind ∧ v.page.begun = s.page.begun
      ∧ v.page.sequence = s.page.sequence ∧ v.page.address = s.page.address := by
    rw [page]; exact ⟨rfl, rfl, rfl, rfl⟩
  obtain ⟨lk, bg, sq, ad⟩ := kinds
  have cases_ := pageRequest_cases v
  obtain ⟨-, -, -, -, po, ps, pa, parb, -⟩ := pageRequest_keeps v
  rw [w, may, burst, lk] at cases_
  obtain ⟨-, ga, -, g⟩ := grantPort_acts (pageRequest v)
  have pp : (pageRequest v).arbiter.port = s.arbiter.port := by rw [parb]; exact port
  generalize hp : pageRequest v = p at *
  generalize ht : grantPort p = t at *
  rw [← o] at cases_
  have ne : s.page.sequence + 1 ≠ s.page.sequence := by
    intro h
    have := congrArg BitVec.toNat h
    rw [BitVec.toNat_add] at this
    have := s.page.sequence.isLt
    simp at *
  have waits : rewriteWaits p = (p.arbiter.bursts.page.any (fun b => b.kind == .rewrite) && !p.page.begun) := by
    unfold rewriteWaits
    cases p.arbiter.bursts.page <;> rfl
  have attempts : t.arbiter.attempts.page = p.arbiter.attempts.page := by rw [ga]
  -- the burst and the record when the rewrite does not begin now, and when it does
  have key : (t.page = p.page ∧ t.arbiter.bursts.page = p.arbiter.bursts.page
        ∧ ¬ (s.arbiter.port = none ∧ t.arbiter.port = some .page ∧ rewriteWaits p = true))
      ∨ (s.arbiter.port = none ∧ t.arbiter.port = some .page ∧ rewriteWaits p = true
        ∧ t.page.owed = false ∧ t.page.begun = true ∧ t.page.lastKind = .rewrite
        ∧ t.page.sequence = s.page.sequence + 1
        ∧ t.arbiter.bursts.page = some ⟨.rewrite, s.page.address.getD 0, 256, pageBytes t⟩) := by
    rcases g with ⟨a, b, c⟩ | ⟨a, b, c, d, e⟩
    · exact Or.inl ⟨a, by rw [b], by rw [← pp]; exact c⟩
    · refine Or.inr ⟨by rw [← pp]; exact a, b, c, by rw [d], by rw [d], by rw [d], by rw [d]; simp [ps, sq], ?_⟩
      rw [e, pa, ad]
  have same : t.page.sequence = s.page.sequence → t.page = p.page ∧ t.arbiter.bursts.page = p.arbiter.bursts.page := by
    intro h
    rcases key with ⟨a, b, _⟩ | ⟨_, _, _, _, _, _, k, _⟩
    · exact ⟨a, b⟩
    · rw [k] at h; exact absurd h ne
  refine ⟨?_, ?_, ?_, ?_, ?_, ?_, ?_, ?_⟩
  · -- owed
    rcases key with ⟨a, _, _⟩ | ⟨_, _, _, a, _, _, b, _⟩
    · rw [a, po, ps, sq, o]; simp
    · rw [a, b]; simp
  · rcases key with ⟨a, _, _⟩ | ⟨_, _, _, _, _, _, b, _⟩
    · rw [a, ps, sq]; exact Or.inl rfl
    · exact Or.inr b
  · -- begins
    have waiting : rewriteWaits p = true ↔
        p.arbiter.bursts.page.any (fun b => b.kind == .rewrite) = true
          ∧ (s.arbiter.bursts.page = none ∨ s.page.begun = false) := by
      rw [waits, Bool.and_eq_true, and_congr_right_iff]
      intro k
      rcases cases_ with ⟨a, e⟩ | ⟨a, _, _, e⟩ | ⟨r, _, _, _, e⟩ | ⟨a, _, _, e⟩
      · rw [e, bg]; simp [a]
      · rw [e, a]; simp [requestRewrite, requestBurst]
      · rw [e] at k; simp [requestResult, requestBurst, Quad.set] at k
      · rw [e, burst, a] at k; cases k
    constructor
    · intro h
      rcases key with ⟨a, _, _⟩ | ⟨a, b, c, _, _, _, _, d⟩
      · rw [a, ps, sq] at h; exact absurd rfl h
      · exact ⟨a, b, by rw [d]; rfl, (waiting.mp c).2⟩
    · rintro ⟨a, b, c, d⟩
      rcases key with ⟨_, k, no⟩ | ⟨_, _, _, _, _, _, k, _⟩
      · rw [k] at c; exact absurd ⟨a, b, waiting.mpr ⟨c, d⟩⟩ no
      · rw [k]; exact ne
  · intro h
    rcases key with ⟨a, _, _⟩ | ⟨_, _, _, _, b, c, _, d⟩
    · rw [a, ps, sq] at h; exact absurd rfl h
    · exact ⟨d, b, c⟩
  · intro h
    rcases cases_ with ⟨_, e⟩ | ⟨a, _, _, _⟩ | ⟨r, a, _, _, _⟩ | ⟨a, _, _, _⟩
    · refine ⟨by rw [attempts, e, attempt], fun k => ?_⟩
      obtain ⟨x, y⟩ := same k
      rw [x, y, e, burst, bg, lk]
      exact ⟨rfl, rfl, rfl⟩
    all_goals exact absurd a h
  · intro h ow fr ad' ch
    have m : (owes s t && !s.notices.freeze && s.page.address.isSome) = true := by
      rw [ow, fr]
      simpa [Option.isSome_iff_ne_none] using ad'
    rcases cases_ with ⟨a, e⟩ | ⟨a, _, _, e⟩ | ⟨r, a, b, c, e⟩ | ⟨a, b, c, e⟩
    · exact absurd h a
    · refine ⟨by rw [attempts, e]; rfl, fun k => ?_⟩
      obtain ⟨x, y⟩ := same k
      rw [x, y, e, ← ad, ← lk]
      exact ⟨rfl, rfl, rfl⟩
    · rw [m] at c
      rcases c with c | c
      · cases c
      · rcases ch with ch | ch
        · rw [ch] at b; cases b
        · rw [ch] at c; cases c
    · rw [m] at c; cases c
  · intro h r hr cond
    rcases cases_ with ⟨a, e⟩ | ⟨a, b, c, e⟩ | ⟨r', a, b, c, e⟩ | ⟨a, b, c, e⟩
    · exact absurd h a
    · simp only [Bool.and_eq_true, Bool.not_eq_true'] at b
      rcases cond with x | x | x | x
      · rw [x] at b; cases b.1.1
      · rw [x] at b; cases b.1.2
      · rw [x] at b; cases b.2
      · rcases c with c | c
        · rw [c] at hr; cases hr
        · rw [c] at x; cases x
    · rw [b] at hr
      cases hr
      have nots : rewriteWaits p = false := by
        rw [waits, e]
        simp [requestResult, requestBurst, Quad.set]
      rcases key with ⟨x, y, _⟩ | ⟨_, _, z, _⟩
      · rw [x, y, attempts, e, ← sq, ← resultBytes_eq]
        exact ⟨rfl, rfl, rfl, rfl⟩
      · rw [nots] at z; cases z
    · rw [b] at hr; cases hr
  · intro h no cond
    have m : (owes s t && !s.notices.freeze && s.page.address.isSome) = false := by
      rcases cond with x | x | x <;> rw [x] <;> simp
    rcases cases_ with ⟨a, e⟩ | ⟨a, b, c, e⟩ | ⟨r', a, b, c, e⟩ | ⟨a, b, c, e⟩
    · exact absurd h a
    · rw [m] at b; cases b
    · rw [no] at b; cases b
    · have nots : rewriteWaits p = false := by rw [waits, e, burst, a]; rfl
      rcases key with ⟨x, y, _⟩ | ⟨_, _, z, _⟩
      · rw [x, y, e, burst, a, lk, sq]
        exact ⟨rfl, rfl, rfl⟩
      · rw [nots] at z; cases z

/-! ## Settling -/

/-- What a writer does depends on its own part of the two states. -/
theorem writerActs_congr {st : Stream} {s s' t t' : State} (a : WriterActs st s t)
    (queue : s'.queue = s.queue) (clips : s'.clips = s.clips) (results : s'.page.results = s.page.results)
    (writer : s'.writer st = s.writer st) (watermark : s'.writers.watermark = s.writers.watermark)
    (low : s'.isPending (.low st) = s.isPending (.low st))
    (starved : s'.isPending (.starved st) = s.isPending (.starved st))
    (burst : s'.arbiter.bursts.get (writerRequester st) = s.arbiter.bursts.get (writerRequester st))
    (writer' : t'.writer st = t.writer st) (low' : t'.isPending (.low st) = t.isPending (.low st))
    (starved' : t'.isPending (.starved st) = t.isPending (.starved st))
    (burst' : t'.arbiter.bursts.get (writerRequester st) = t.arbiter.bursts.get (writerRequester st))
    (attempt' : t'.arbiter.attempts.get (writerRequester st) = t.arbiter.attempts.get (writerRequester st)) :
    WriterActs st s' t' := by
  have o := offers_congr queue clips st
  have w : awaits st s' = awaits st s := by simp only [awaits, results]
  have e : s'.entries st = s.entries st := by simp only [State.entries, queue]
  obtain ⟨f1, f2, f3, f4, f5, f6, f7, f8, f9, f10⟩ := a
  constructor <;> simp only [o, w, e, writer, watermark, low, starved, burst, writer', low', starved', burst',
    attempt'] <;> assumption

/-- What may follow an event at once in a calm state. -/
theorem settle_follows (s : State) (calm : Calm s) : Follows s (settle s) := by
  obtain ⟨rm, rp, n, f⟩ := calm
  have one := settleWriter_one .master s rm n
  have rp' : ((settleWriter .master s).writer .proxy).relinquish = none := by
    rw [show (settleWriter .master s).writer .proxy = s.writer .proxy from one.other]; exact rp
  have two := settleWriter_one .proxy (settleWriter .master s) rp' (by rw [one.walker]; exact n)
  have all := settle_followedBy s
  have toM := settleWriter_followedBy .master s
  have toP := settleWriter_followedBy .proxy (settleWriter .master s)
  have idle : testDrained (settleWriter .proxy (settleWriter .master s))
      = settleWriter .proxy (settleWriter .master s) := by
    unfold testDrained
    have e : (settleWriter .proxy (settleWriter .master s)).flight = s.flight := by
      simp only [State.flight, two.walker, one.walker]
    simp [e, f]
  unfold settle at all ⊢
  rw [idle] at all ⊢
  generalize settleWriter .proxy (settleWriter .master s) = v at *
  generalize settleWriter .master s = u at *
  obtain ⟨pw, pv, pn, pr, -, -, -, pa, pb⟩ := pageRequest_keeps v
  obtain ⟨acts, ga, gb, gp⟩ := grantPort_acts (pageRequest v)
  have same : (grantPort (pageRequest v)).walker = v.walker ∧ (grantPort (pageRequest v)).writers = v.writers
      ∧ (grantPort (pageRequest v)).notices = v.notices
      ∧ (grantPort (pageRequest v)).page.results = v.page.results
      ∧ (grantPort (pageRequest v)).arbiter.resetBurst = v.arbiter.resetBurst := by
    rw [← pw, ← pv, ← pn, ← pr, show v.arbiter.resetBurst = (pageRequest v).arbiter.resetBurst by rw [pa]]
    generalize pageRequest v = p
    unfold grantPort
    split
    · exact ⟨rfl, rfl, rfl, rfl, rfl⟩
    · split
      · exact ⟨rfl, rfl, rfl, rfl, rfl⟩
      · dsimp only
        split <;> exact ⟨rfl, rfl, rfl, rfl, rfl⟩
  obtain ⟨tw, tv, tn, tr, tx⟩ := same
  -- the writers' own bursts
  have tb : ∀ r, r ≠ .page → (grantPort (pageRequest v)).arbiter.bursts.get r = v.arbiter.bursts.get r
      ∧ (grantPort (pageRequest v)).arbiter.attempts.get r = v.arbiter.attempts.get r := fun r h => by
    rw [gb r h, ga]; exact pb r h
  have vm : v.writer .master = u.writer .master := two.other
  have up : u.writer .proxy = s.writer .proxy := one.other
  have uq : u.page.results = s.page.results := by rw [one.page]
  have vq : v.page.results = s.page.results := by rw [two.page]; exact uq
  have owed : owes s (grantPort (pageRequest v)) = v.page.owed := by
    have m : (grantPort (pageRequest v)).writer .master = u.writer .master := by
      rw [← vm]; simp only [State.writer, tv]
    have p : (grantPort (pageRequest v)).writer .proxy = v.writer .proxy := by simp only [State.writer, tv]
    rw [two.owed, one.owed]
    have : u.page.address = s.page.address := by rw [one.page]
    simp only [owes, List.any_cons, List.any_nil, Bool.or_false, m, p, up, this, Bool.and_or_distrib_left,
      Bool.or_assoc]
  have page := grant_acts s v owed
    (by
      have h := two.page
      rw [one.page] at h
      rw [h])
    ((two.bursts .page (by decide)).1.trans (one.bursts .page (by decide)).1)
    ((two.bursts .page (by decide)).2.trans (one.bursts .page (by decide)).2)
    (by rw [two.arbiter]; show u.arbiter.port = _; rw [one.arbiter])
    (toP.settings.freeze.trans toM.settings.freeze) (two.walker.trans one.walker)
  have pending : ∀ m, (grantPort (pageRequest v)).isPending m = v.isPending m := fun m => by
    simp only [State.isPending, tn]
  refine ⟨all, by rw [tw, two.walker, one.walker], ?_, by rw [tr, vq], ?_, ?_, ?_, page, ?_, ?_⟩
  · have a := (tb .walker (by decide)).1
    have b := (two.bursts .walker (by decide)).1
    have c := (one.bursts .walker (by decide)).1
    exact a.trans (b.trans c)
  · intro st
    have e : (grantPort (pageRequest v)).writer st = v.writer st := by simp only [State.writer, tv]
    rw [e]
    cases st with
    | master => rw [vm]; exact one.writer
    | proxy => have h := two.writer; rw [up] at h; exact h
  · intro r b e h
    have k := tb r e
    by_cases m : r = .master
    · subst m
      have x := one.waiting b h
      have y := two.bursts .master (by decide)
      exact ⟨k.1.trans (y.1.trans x.1), k.2.trans (y.2.trans x.2)⟩
    · have x := one.bursts r m
      by_cases p : r = .proxy
      · subst p
        have y := two.waiting b (x.1.trans h)
        exact ⟨k.1.trans y.1, k.2.trans (y.2.trans x.2)⟩
      · have y := two.bursts r p
        exact ⟨k.1.trans (y.1.trans (x.1.trans h)), k.2.trans (y.2.trans x.2)⟩
  · intro st
    cases st with
    | master =>
      refine writerActs_congr one.acts rfl rfl rfl rfl rfl rfl rfl rfl ?_ ?_ ?_ ?_ ?_
      · rw [← vm]; simp only [State.writer, tv]
      · rw [pending]; exact two.pending _ (by decide) (by decide)
      · rw [pending]; exact two.pending _ (by decide) (by decide)
      · exact (tb .master (by decide)).1.trans (two.bursts .master (by decide)).1
      · exact (tb .master (by decide)).2.trans (two.bursts .master (by decide)).2
    | proxy =>
      refine writerActs_congr two.acts toM.records.queue.symm toM.records.clips.symm uq.symm up.symm
        toM.settings.watermark.symm (one.pending _ (by decide) (by decide)).symm
        (one.pending _ (by decide) (by decide)).symm (one.bursts .proxy (by decide)).1.symm ?_ ?_ ?_ ?_ ?_
      · simp only [State.writer, tv]
      · exact pending _
      · exact pending _
      · exact (tb .proxy (by decide)).1
      · exact (tb .proxy (by decide)).2
  · have vp : (pageRequest v).arbiter.port = s.arbiter.port ∧ (pageRequest v).arbiter.position = s.arbiter.position
        ∧ (pageRequest v).arbiter.high = s.arbiter.high := by
      rw [pa]
      refine ⟨?_, ?_, ?_⟩ <;> dsimp only <;> rw [two.arbiter] <;> dsimp only <;> rw [one.arbiter]
    obtain ⟨b, i, g⟩ := acts
    rw [vp.1, vp.2.1] at b
    rw [vp.2.1] at i
    rw [vp.1, vp.2.1, vp.2.2] at g
    exact ⟨b, i, g⟩
  · rw [tx, two.arbiter]
    show u.arbiter.resetBurst = _
    rw [one.arbiter]

end Sys2Proof.Laws
end

