-- ==== Sys2Proof/Laws/Memory.lean ====
section
/-! SUPPORT. Shared memory: every operation keeps the canonical form, a read after a write to the same place
gives the value written, and a write leaves every other place alone. -/

namespace Sys2Proof.Laws

open Sys2Proof.Machine

/-- The canonical form, as an order on the listed addresses. -/
theorem wf_iff (m : Memory) : Memory.wf m = true ↔ m.Pairwise (fun c d => c.1 < d.1) := by
  induction m with
  | nil => simp [Memory.wf]
  | cons c rest ih =>
    cases rest with
    | nil => simp [Memory.wf]
    | cons d rest =>
      simp only [Memory.wf, Bool.and_eq_true, decide_eq_true_eq, ih, List.pairwise_cons]
      constructor
      · rintro ⟨h, k, p⟩
        refine ⟨?_, k, p⟩
        intro e he
        rcases List.mem_cons.1 he with rfl | he
        · exact h
        · exact h.trans (k e he)
      · rintro ⟨h, k, p⟩
        exact ⟨h d (by simp), k, p⟩

/-- An address listed after a byte is written was listed before, or is the one written. -/
theorem mem_writeByte {m : Memory} {a : Nat} {b : Byte} {c : Host.Cell} (h : c ∈ writeByte m a b) :
    c = (a, b) ∨ c ∈ m := by
  induction m with
  | nil => simpa [writeByte] using h
  | cons d rest ih =>
    unfold writeByte at h
    split at h
    · simpa using h
    · split at h
      · rcases List.mem_cons.1 h with h | h
        · exact .inl h
        · exact .inr (List.mem_cons_of_mem _ h)
      · rcases List.mem_cons.1 h with h | h
        · exact .inr (h ▸ List.mem_cons_self)
        · exact (ih h).imp id (List.mem_cons_of_mem _)

theorem writeByte_wf {m : Memory} (h : Memory.wf m = true) (a : Nat) (b : Byte) :
    Memory.wf (writeByte m a b) = true := by
  rw [wf_iff] at h ⊢
  induction m with
  | nil => simp [writeByte]
  | cons d rest ih =>
    obtain ⟨k, p⟩ := List.pairwise_cons.1 h
    unfold writeByte
    split
    · rename_i lt
      refine List.pairwise_cons.2 ⟨fun e he => ?_, h⟩
      rcases List.mem_cons.1 he with rfl | he
      · exact lt
      · exact lt.trans (k e he)
    · split
      · rename_i eq
        exact List.pairwise_cons.2 ⟨fun e he => eq ▸ k e he, p⟩
      · rename_i nlt ne
        refine List.pairwise_cons.2 ⟨fun e he => ?_, ih p⟩
        rcases mem_writeByte he with rfl | he
        · exact Nat.lt_of_le_of_ne (Nat.le_of_not_lt nlt) fun q => ne q.symm
        · exact k e he

theorem writeBytes_wf {m : Memory} (h : Memory.wf m = true) (a : Nat) (bytes : List Byte) :
    Memory.wf (writeBytes m a bytes) = true := by
  induction bytes generalizing m a with
  | nil => exact h
  | cons b rest ih => exact ih (writeByte_wf h a b) (a + 1)

theorem forgetBytes_wf {m : Memory} (h : Memory.wf m = true) (a n : Nat) :
    Memory.wf (forgetBytes m a n) = true := by
  rw [wf_iff] at h ⊢
  exact h.filter _

/-- Shared memory right after reset is in canonical form. -/
theorem reset_wf : Memory.wf State.reset.shared = true := rfl

theorem readByte_writeByte_same (m : Memory) (a : Nat) (b : Byte) : readByte (writeByte m a b) a = some b := by
  induction m with
  | nil => simp [writeByte, readByte]
  | cons d rest ih =>
    unfold writeByte
    split
    · simp [readByte]
    · split
      · simp [readByte]
      · rename_i ne
        simp [readByte, Ne.symm ne, ih]

theorem readByte_writeByte_other (m : Memory) {a x : Nat} (b : Byte) (h : x ≠ a) :
    readByte (writeByte m a b) x = readByte m x := by
  induction m with
  | nil => simp [writeByte, readByte, Ne.symm h]
  | cons d rest ih =>
    unfold writeByte
    split
    · simp [readByte, Ne.symm h]
    · split
      · rename_i eq
        simp [readByte, ← eq, Ne.symm h]
      · simp [readByte, ih]

/-- Bytes written from `a` upward leave every other address as it was. -/
theorem readByte_writeBytes_other (m : Memory) {a x : Nat} (bytes : List Byte)
    (h : x < a ∨ a + bytes.length ≤ x) : readByte (writeBytes m a bytes) x = readByte m x := by
  induction bytes generalizing m a with
  | nil => rfl
  | cons b rest ih =>
    simp only [List.length_cons] at h
    unfold writeBytes
    rw [ih (writeByte m a b) (by omega), readByte_writeByte_other m b (by omega)]

/-- Bytes written from `a` upward read back as they were written. -/
theorem readByte_writeBytes_same (m : Memory) (a : Nat) (bytes : List Byte) {k : Nat} (h : k < bytes.length) :
    readByte (writeBytes m a bytes) (a + k) = bytes[k]? := by
  induction bytes generalizing m a k with
  | nil => simp at h
  | cons b rest ih =>
    unfold writeBytes
    cases k with
    | zero => rw [readByte_writeBytes_other _ _ (by omega)]; simp [readByte_writeByte_same]
    | succ k =>
      rw [show a + (k + 1) = a + 1 + k by omega, ih _ _ (by simpa using h)]
      simp

/-- What is forgotten reads as nothing, and every other address as it did. -/
theorem readByte_forgetBytes (m : Memory) (a n x : Nat) :
    readByte (forgetBytes m a n) x = if x < a ∨ a + n ≤ x then readByte m x else none := by
  induction m with
  | nil => simp [forgetBytes, readByte]
  | cons d rest ih =>
    have ih' := ih
    unfold forgetBytes at ih' ⊢
    by_cases h : d.1 < a ∨ a + n ≤ d.1
    · rw [List.filter_cons_of_pos (by simpa using h)]
      by_cases e : d.1 = x
      · subst e; simp [readByte, h]
      · simpa [readByte, e] using ih'
    · rw [List.filter_cons_of_neg (by simpa using h), ih']
      by_cases e : d.1 = x
      · subst e; simp [h]
      · simp [readByte, e]

end Sys2Proof.Laws
end

