-- ==== Sys2Proof/Laws/State.lean ====
section
/-! SUPPORT. What the named updates of the state leave as it was, one lemma for each field, true by `rfl`. -/

namespace Sys2Proof.Laws

open Sys2Proof.Machine

variable (s : State)

@[simp] theorem oweRewrite_pending : (oweRewrite s).pending = s.pending := rfl
@[simp] theorem oweRewrite_intake : (oweRewrite s).intake = s.intake := rfl
@[simp] theorem oweRewrite_slots : (oweRewrite s).slots = s.slots := rfl
@[simp] theorem oweRewrite_inputs : (oweRewrite s).inputs = s.inputs := rfl
@[simp] theorem oweRewrite_master : (oweRewrite s).master = s.master := rfl
@[simp] theorem oweRewrite_proxy : (oweRewrite s).proxy = s.proxy := rfl
@[simp] theorem oweRewrite_governor : (oweRewrite s).governor = s.governor := rfl
@[simp] theorem oweRewrite_queue : (oweRewrite s).queue = s.queue := rfl
@[simp] theorem oweRewrite_clips : (oweRewrite s).clips = s.clips := rfl
@[simp] theorem oweRewrite_writers : (oweRewrite s).writers = s.writers := rfl
@[simp] theorem oweRewrite_arbiter : (oweRewrite s).arbiter = s.arbiter := rfl
@[simp] theorem oweRewrite_lines : (oweRewrite s).lines = s.lines := rfl
@[simp] theorem oweRewrite_walker : (oweRewrite s).walker = s.walker := rfl
@[simp] theorem oweRewrite_notices : (oweRewrite s).notices = s.notices := rfl
@[simp] theorem oweRewrite_page_address : (oweRewrite s).page.address = s.page.address := rfl
@[simp] theorem oweRewrite_page_sequence : (oweRewrite s).page.sequence = s.page.sequence := rfl
@[simp] theorem oweRewrite_page_begun : (oweRewrite s).page.begun = s.page.begun := rfl
@[simp] theorem oweRewrite_page_lastKind : (oweRewrite s).page.lastKind = s.page.lastKind := rfl
@[simp] theorem oweRewrite_page_results : (oweRewrite s).page.results = s.page.results := rfl
@[simp] theorem oweRewrite_shared : (oweRewrite s).shared = s.shared := rfl
@[simp] theorem oweRewrite_freeTag : (oweRewrite s).freeTag = s.freeTag := rfl

@[simp] theorem raise_pending (n : Notice) : (raise n s).pending = s.pending := rfl
@[simp] theorem raise_intake (n : Notice) : (raise n s).intake = s.intake := rfl
@[simp] theorem raise_slots (n : Notice) : (raise n s).slots = s.slots := rfl
@[simp] theorem raise_inputs (n : Notice) : (raise n s).inputs = s.inputs := rfl
@[simp] theorem raise_master (n : Notice) : (raise n s).master = s.master := rfl
@[simp] theorem raise_proxy (n : Notice) : (raise n s).proxy = s.proxy := rfl
@[simp] theorem raise_governor (n : Notice) : (raise n s).governor = s.governor := rfl
@[simp] theorem raise_queue (n : Notice) : (raise n s).queue = s.queue := rfl
@[simp] theorem raise_clips (n : Notice) : (raise n s).clips = s.clips := rfl
@[simp] theorem raise_writers (n : Notice) : (raise n s).writers = s.writers := rfl
@[simp] theorem raise_arbiter (n : Notice) : (raise n s).arbiter = s.arbiter := rfl
@[simp] theorem raise_lines (n : Notice) : (raise n s).lines = s.lines := rfl
@[simp] theorem raise_walker (n : Notice) : (raise n s).walker = s.walker := rfl
@[simp] theorem raise_notices_mask (n : Notice) : (raise n s).notices.mask = s.notices.mask := rfl
@[simp] theorem raise_notices_log (n : Notice) : (raise n s).notices.log = s.notices.log := rfl
@[simp] theorem raise_notices_later (n : Notice) : (raise n s).notices.later = s.notices.later := rfl
@[simp] theorem raise_notices_freeze (n : Notice) : (raise n s).notices.freeze = s.notices.freeze := rfl
@[simp] theorem raise_page_address (n : Notice) : (raise n s).page.address = s.page.address := rfl
@[simp] theorem raise_page_sequence (n : Notice) : (raise n s).page.sequence = s.page.sequence := rfl
@[simp] theorem raise_page_begun (n : Notice) : (raise n s).page.begun = s.page.begun := rfl
@[simp] theorem raise_page_lastKind (n : Notice) : (raise n s).page.lastKind = s.page.lastKind := rfl
@[simp] theorem raise_page_results (n : Notice) : (raise n s).page.results = s.page.results := rfl
@[simp] theorem raise_shared (n : Notice) : (raise n s).shared = s.shared := rfl
@[simp] theorem raise_freeTag (n : Notice) : (raise n s).freeTag = s.freeTag := rfl

@[simp] theorem requestBurst_pending (r : Requester) (b : Burst) : (requestBurst r b s).pending = s.pending := rfl
@[simp] theorem requestBurst_intake (r : Requester) (b : Burst) : (requestBurst r b s).intake = s.intake := rfl
@[simp] theorem requestBurst_slots (r : Requester) (b : Burst) : (requestBurst r b s).slots = s.slots := rfl
@[simp] theorem requestBurst_inputs (r : Requester) (b : Burst) : (requestBurst r b s).inputs = s.inputs := rfl
@[simp] theorem requestBurst_master (r : Requester) (b : Burst) : (requestBurst r b s).master = s.master := rfl
@[simp] theorem requestBurst_proxy (r : Requester) (b : Burst) : (requestBurst r b s).proxy = s.proxy := rfl
@[simp] theorem requestBurst_governor (r : Requester) (b : Burst) : (requestBurst r b s).governor = s.governor := rfl
@[simp] theorem requestBurst_queue (r : Requester) (b : Burst) : (requestBurst r b s).queue = s.queue := rfl
@[simp] theorem requestBurst_clips (r : Requester) (b : Burst) : (requestBurst r b s).clips = s.clips := rfl
@[simp] theorem requestBurst_writers (r : Requester) (b : Burst) : (requestBurst r b s).writers = s.writers := rfl
@[simp] theorem requestBurst_arbiter_port (r : Requester) (b : Burst) : (requestBurst r b s).arbiter.port = s.arbiter.port := rfl
@[simp] theorem requestBurst_arbiter_resetBurst (r : Requester) (b : Burst) : (requestBurst r b s).arbiter.resetBurst = s.arbiter.resetBurst := rfl
@[simp] theorem requestBurst_arbiter_high (r : Requester) (b : Burst) : (requestBurst r b s).arbiter.high = s.arbiter.high := rfl
@[simp] theorem requestBurst_arbiter_position (r : Requester) (b : Burst) : (requestBurst r b s).arbiter.position = s.arbiter.position := rfl
@[simp] theorem requestBurst_arbiter_retries (r : Requester) (b : Burst) : (requestBurst r b s).arbiter.retries = s.arbiter.retries := rfl
@[simp] theorem requestBurst_lines (r : Requester) (b : Burst) : (requestBurst r b s).lines = s.lines := rfl
@[simp] theorem requestBurst_walker (r : Requester) (b : Burst) : (requestBurst r b s).walker = s.walker := rfl
@[simp] theorem requestBurst_notices (r : Requester) (b : Burst) : (requestBurst r b s).notices = s.notices := rfl
@[simp] theorem requestBurst_page (r : Requester) (b : Burst) : (requestBurst r b s).page = s.page := rfl
@[simp] theorem requestBurst_shared (r : Requester) (b : Burst) : (requestBurst r b s).shared = s.shared := rfl
@[simp] theorem requestBurst_freeTag (r : Requester) (b : Burst) : (requestBurst r b s).freeTag = s.freeTag := rfl

@[simp] theorem dropBurst_pending (r : Requester) : (dropBurst r s).pending = s.pending := rfl
@[simp] theorem dropBurst_intake (r : Requester) : (dropBurst r s).intake = s.intake := rfl
@[simp] theorem dropBurst_slots (r : Requester) : (dropBurst r s).slots = s.slots := rfl
@[simp] theorem dropBurst_inputs (r : Requester) : (dropBurst r s).inputs = s.inputs := rfl
@[simp] theorem dropBurst_master (r : Requester) : (dropBurst r s).master = s.master := rfl
@[simp] theorem dropBurst_proxy (r : Requester) : (dropBurst r s).proxy = s.proxy := rfl
@[simp] theorem dropBurst_governor (r : Requester) : (dropBurst r s).governor = s.governor := rfl
@[simp] theorem dropBurst_queue (r : Requester) : (dropBurst r s).queue = s.queue := rfl
@[simp] theorem dropBurst_clips (r : Requester) : (dropBurst r s).clips = s.clips := rfl
@[simp] theorem dropBurst_writers (r : Requester) : (dropBurst r s).writers = s.writers := rfl
@[simp] theorem dropBurst_arbiter_attempts (r : Requester) : (dropBurst r s).arbiter.attempts = s.arbiter.attempts := rfl
@[simp] theorem dropBurst_arbiter_port (r : Requester) : (dropBurst r s).arbiter.port = s.arbiter.port := rfl
@[simp] theorem dropBurst_arbiter_resetBurst (r : Requester) : (dropBurst r s).arbiter.resetBurst = s.arbiter.resetBurst := rfl
@[simp] theorem dropBurst_arbiter_high (r : Requester) : (dropBurst r s).arbiter.high = s.arbiter.high := rfl
@[simp] theorem dropBurst_arbiter_position (r : Requester) : (dropBurst r s).arbiter.position = s.arbiter.position := rfl
@[simp] theorem dropBurst_arbiter_retries (r : Requester) : (dropBurst r s).arbiter.retries = s.arbiter.retries := rfl
@[simp] theorem dropBurst_lines (r : Requester) : (dropBurst r s).lines = s.lines := rfl
@[simp] theorem dropBurst_walker (r : Requester) : (dropBurst r s).walker = s.walker := rfl
@[simp] theorem dropBurst_notices (r : Requester) : (dropBurst r s).notices = s.notices := rfl
@[simp] theorem dropBurst_page (r : Requester) : (dropBurst r s).page = s.page := rfl
@[simp] theorem dropBurst_shared (r : Requester) : (dropBurst r s).shared = s.shared := rfl
@[simp] theorem dropBurst_freeTag (r : Requester) : (dropBurst r s).freeTag = s.freeTag := rfl

@[simp] theorem freePort_pending : (freePort s).pending = s.pending := rfl
@[simp] theorem freePort_intake : (freePort s).intake = s.intake := rfl
@[simp] theorem freePort_slots : (freePort s).slots = s.slots := rfl
@[simp] theorem freePort_inputs : (freePort s).inputs = s.inputs := rfl
@[simp] theorem freePort_master : (freePort s).master = s.master := rfl
@[simp] theorem freePort_proxy : (freePort s).proxy = s.proxy := rfl
@[simp] theorem freePort_governor : (freePort s).governor = s.governor := rfl
@[simp] theorem freePort_queue : (freePort s).queue = s.queue := rfl
@[simp] theorem freePort_clips : (freePort s).clips = s.clips := rfl
@[simp] theorem freePort_writers : (freePort s).writers = s.writers := rfl
@[simp] theorem freePort_arbiter_bursts : (freePort s).arbiter.bursts = s.arbiter.bursts := rfl
@[simp] theorem freePort_arbiter_attempts : (freePort s).arbiter.attempts = s.arbiter.attempts := rfl
@[simp] theorem freePort_arbiter_high : (freePort s).arbiter.high = s.arbiter.high := rfl
@[simp] theorem freePort_arbiter_position : (freePort s).arbiter.position = s.arbiter.position := rfl
@[simp] theorem freePort_arbiter_retries : (freePort s).arbiter.retries = s.arbiter.retries := rfl
@[simp] theorem freePort_lines : (freePort s).lines = s.lines := rfl
@[simp] theorem freePort_walker : (freePort s).walker = s.walker := rfl
@[simp] theorem freePort_notices : (freePort s).notices = s.notices := rfl
@[simp] theorem freePort_page : (freePort s).page = s.page := rfl
@[simp] theorem freePort_shared : (freePort s).shared = s.shared := rfl
@[simp] theorem freePort_freeTag : (freePort s).freeTag = s.freeTag := rfl

@[simp] theorem countRetry_pending : (countRetry s).pending = s.pending := rfl
@[simp] theorem countRetry_intake : (countRetry s).intake = s.intake := rfl
@[simp] theorem countRetry_slots : (countRetry s).slots = s.slots := rfl
@[simp] theorem countRetry_inputs : (countRetry s).inputs = s.inputs := rfl
@[simp] theorem countRetry_master : (countRetry s).master = s.master := rfl
@[simp] theorem countRetry_proxy : (countRetry s).proxy = s.proxy := rfl
@[simp] theorem countRetry_governor : (countRetry s).governor = s.governor := rfl
@[simp] theorem countRetry_queue : (countRetry s).queue = s.queue := rfl
@[simp] theorem countRetry_clips : (countRetry s).clips = s.clips := rfl
@[simp] theorem countRetry_writers : (countRetry s).writers = s.writers := rfl
@[simp] theorem countRetry_arbiter_bursts : (countRetry s).arbiter.bursts = s.arbiter.bursts := rfl
@[simp] theorem countRetry_arbiter_attempts : (countRetry s).arbiter.attempts = s.arbiter.attempts := rfl
@[simp] theorem countRetry_arbiter_port : (countRetry s).arbiter.port = s.arbiter.port := rfl
@[simp] theorem countRetry_arbiter_resetBurst : (countRetry s).arbiter.resetBurst = s.arbiter.resetBurst := rfl
@[simp] theorem countRetry_arbiter_high : (countRetry s).arbiter.high = s.arbiter.high := rfl
@[simp] theorem countRetry_arbiter_position : (countRetry s).arbiter.position = s.arbiter.position := rfl
@[simp] theorem countRetry_lines : (countRetry s).lines = s.lines := rfl
@[simp] theorem countRetry_walker : (countRetry s).walker = s.walker := rfl
@[simp] theorem countRetry_notices : (countRetry s).notices = s.notices := rfl
@[simp] theorem countRetry_page : (countRetry s).page = s.page := rfl
@[simp] theorem countRetry_shared : (countRetry s).shared = s.shared := rfl
@[simp] theorem countRetry_freeTag : (countRetry s).freeTag = s.freeTag := rfl

@[simp] theorem landBurst_pending (b : Burst) : (landBurst b s).pending = s.pending := rfl
@[simp] theorem landBurst_intake (b : Burst) : (landBurst b s).intake = s.intake := rfl
@[simp] theorem landBurst_slots (b : Burst) : (landBurst b s).slots = s.slots := rfl
@[simp] theorem landBurst_inputs (b : Burst) : (landBurst b s).inputs = s.inputs := rfl
@[simp] theorem landBurst_master (b : Burst) : (landBurst b s).master = s.master := rfl
@[simp] theorem landBurst_proxy (b : Burst) : (landBurst b s).proxy = s.proxy := rfl
@[simp] theorem landBurst_governor (b : Burst) : (landBurst b s).governor = s.governor := rfl
@[simp] theorem landBurst_queue (b : Burst) : (landBurst b s).queue = s.queue := rfl
@[simp] theorem landBurst_clips (b : Burst) : (landBurst b s).clips = s.clips := rfl
@[simp] theorem landBurst_writers (b : Burst) : (landBurst b s).writers = s.writers := rfl
@[simp] theorem landBurst_arbiter (b : Burst) : (landBurst b s).arbiter = s.arbiter := rfl
@[simp] theorem landBurst_lines (b : Burst) : (landBurst b s).lines = s.lines := rfl
@[simp] theorem landBurst_walker (b : Burst) : (landBurst b s).walker = s.walker := rfl
@[simp] theorem landBurst_notices (b : Burst) : (landBurst b s).notices = s.notices := rfl
@[simp] theorem landBurst_page (b : Burst) : (landBurst b s).page = s.page := rfl
@[simp] theorem landBurst_freeTag (b : Burst) : (landBurst b s).freeTag = s.freeTag := rfl

@[simp] theorem changeWalker_pending (f : Walker → Walker) : (changeWalker f s).pending = s.pending := rfl
@[simp] theorem changeWalker_intake (f : Walker → Walker) : (changeWalker f s).intake = s.intake := rfl
@[simp] theorem changeWalker_slots (f : Walker → Walker) : (changeWalker f s).slots = s.slots := rfl
@[simp] theorem changeWalker_inputs (f : Walker → Walker) : (changeWalker f s).inputs = s.inputs := rfl
@[simp] theorem changeWalker_master (f : Walker → Walker) : (changeWalker f s).master = s.master := rfl
@[simp] theorem changeWalker_proxy (f : Walker → Walker) : (changeWalker f s).proxy = s.proxy := rfl
@[simp] theorem changeWalker_governor (f : Walker → Walker) : (changeWalker f s).governor = s.governor := rfl
@[simp] theorem changeWalker_queue (f : Walker → Walker) : (changeWalker f s).queue = s.queue := rfl
@[simp] theorem changeWalker_clips (f : Walker → Walker) : (changeWalker f s).clips = s.clips := rfl
@[simp] theorem changeWalker_writers (f : Walker → Walker) : (changeWalker f s).writers = s.writers := rfl
@[simp] theorem changeWalker_arbiter (f : Walker → Walker) : (changeWalker f s).arbiter = s.arbiter := rfl
@[simp] theorem changeWalker_lines (f : Walker → Walker) : (changeWalker f s).lines = s.lines := rfl
@[simp] theorem changeWalker_notices (f : Walker → Walker) : (changeWalker f s).notices = s.notices := rfl
@[simp] theorem changeWalker_page (f : Walker → Walker) : (changeWalker f s).page = s.page := rfl
@[simp] theorem changeWalker_shared (f : Walker → Walker) : (changeWalker f s).shared = s.shared := rfl
@[simp] theorem changeWalker_freeTag (f : Walker → Walker) : (changeWalker f s).freeTag = s.freeTag := rfl

@[simp] theorem changeBlock_pending (f : Block → Block) : (changeBlock f s).pending = s.pending := rfl
@[simp] theorem changeBlock_intake (f : Block → Block) : (changeBlock f s).intake = s.intake := rfl
@[simp] theorem changeBlock_slots (f : Block → Block) : (changeBlock f s).slots = s.slots := rfl
@[simp] theorem changeBlock_inputs (f : Block → Block) : (changeBlock f s).inputs = s.inputs := rfl
@[simp] theorem changeBlock_master (f : Block → Block) : (changeBlock f s).master = s.master := rfl
@[simp] theorem changeBlock_proxy (f : Block → Block) : (changeBlock f s).proxy = s.proxy := rfl
@[simp] theorem changeBlock_governor (f : Block → Block) : (changeBlock f s).governor = s.governor := rfl
@[simp] theorem changeBlock_queue (f : Block → Block) : (changeBlock f s).queue = s.queue := rfl
@[simp] theorem changeBlock_clips (f : Block → Block) : (changeBlock f s).clips = s.clips := rfl
@[simp] theorem changeBlock_writers (f : Block → Block) : (changeBlock f s).writers = s.writers := rfl
@[simp] theorem changeBlock_arbiter (f : Block → Block) : (changeBlock f s).arbiter = s.arbiter := rfl
@[simp] theorem changeBlock_lines (f : Block → Block) : (changeBlock f s).lines = s.lines := rfl
@[simp] theorem changeBlock_walker_state (f : Block → Block) : (changeBlock f s).walker.state = s.walker.state := rfl
@[simp] theorem changeBlock_walker_count (f : Block → Block) : (changeBlock f s).walker.count = s.walker.count := rfl
@[simp] theorem changeBlock_walker_continuation (f : Block → Block) : (changeBlock f s).walker.continuation = s.walker.continuation := rfl
@[simp] theorem changeBlock_walker_lastBlock (f : Block → Block) : (changeBlock f s).walker.lastBlock = s.walker.lastBlock := rfl
@[simp] theorem changeBlock_walker_lastTag (f : Block → Block) : (changeBlock f s).walker.lastTag = s.walker.lastTag := rfl
@[simp] theorem changeBlock_walker_haltRequest (f : Block → Block) : (changeBlock f s).walker.haltRequest = s.walker.haltRequest := rfl
@[simp] theorem changeBlock_walker_pendingEntry (f : Block → Block) : (changeBlock f s).walker.pendingEntry = s.walker.pendingEntry := rfl
@[simp] theorem changeBlock_walker_lastRefusal (f : Block → Block) : (changeBlock f s).walker.lastRefusal = s.walker.lastRefusal := rfl
@[simp] theorem changeBlock_notices (f : Block → Block) : (changeBlock f s).notices = s.notices := rfl
@[simp] theorem changeBlock_page (f : Block → Block) : (changeBlock f s).page = s.page := rfl
@[simp] theorem changeBlock_shared (f : Block → Block) : (changeBlock f s).shared = s.shared := rfl
@[simp] theorem changeBlock_freeTag (f : Block → Block) : (changeBlock f s).freeTag = s.freeTag := rfl

@[simp] theorem putStage_pending (g : Stage) : (putStage g s).pending = s.pending := rfl
@[simp] theorem putStage_intake (g : Stage) : (putStage g s).intake = s.intake := rfl
@[simp] theorem putStage_slots (g : Stage) : (putStage g s).slots = s.slots := rfl
@[simp] theorem putStage_inputs (g : Stage) : (putStage g s).inputs = s.inputs := rfl
@[simp] theorem putStage_master (g : Stage) : (putStage g s).master = s.master := rfl
@[simp] theorem putStage_proxy (g : Stage) : (putStage g s).proxy = s.proxy := rfl
@[simp] theorem putStage_governor (g : Stage) : (putStage g s).governor = s.governor := rfl
@[simp] theorem putStage_queue (g : Stage) : (putStage g s).queue = s.queue := rfl
@[simp] theorem putStage_clips (g : Stage) : (putStage g s).clips = s.clips := rfl
@[simp] theorem putStage_writers (g : Stage) : (putStage g s).writers = s.writers := rfl
@[simp] theorem putStage_arbiter (g : Stage) : (putStage g s).arbiter = s.arbiter := rfl
@[simp] theorem putStage_lines (g : Stage) : (putStage g s).lines = s.lines := rfl
@[simp] theorem putStage_walker_state (g : Stage) : (putStage g s).walker.state = s.walker.state := rfl
@[simp] theorem putStage_walker_count (g : Stage) : (putStage g s).walker.count = s.walker.count := rfl
@[simp] theorem putStage_walker_continuation (g : Stage) : (putStage g s).walker.continuation = s.walker.continuation := rfl
@[simp] theorem putStage_walker_lastBlock (g : Stage) : (putStage g s).walker.lastBlock = s.walker.lastBlock := rfl
@[simp] theorem putStage_walker_lastTag (g : Stage) : (putStage g s).walker.lastTag = s.walker.lastTag := rfl
@[simp] theorem putStage_walker_haltRequest (g : Stage) : (putStage g s).walker.haltRequest = s.walker.haltRequest := rfl
@[simp] theorem putStage_walker_pendingEntry (g : Stage) : (putStage g s).walker.pendingEntry = s.walker.pendingEntry := rfl
@[simp] theorem putStage_walker_lastRefusal (g : Stage) : (putStage g s).walker.lastRefusal = s.walker.lastRefusal := rfl
@[simp] theorem putStage_notices (g : Stage) : (putStage g s).notices = s.notices := rfl
@[simp] theorem putStage_page (g : Stage) : (putStage g s).page = s.page := rfl
@[simp] theorem putStage_shared (g : Stage) : (putStage g s).shared = s.shared := rfl
@[simp] theorem putStage_freeTag (g : Stage) : (putStage g s).freeTag = s.freeTag := rfl

@[simp] theorem goStopping_pending : (goStopping s).pending = s.pending := rfl
@[simp] theorem goStopping_intake : (goStopping s).intake = s.intake := rfl
@[simp] theorem goStopping_slots : (goStopping s).slots = s.slots := rfl
@[simp] theorem goStopping_inputs : (goStopping s).inputs = s.inputs := rfl
@[simp] theorem goStopping_master : (goStopping s).master = s.master := rfl
@[simp] theorem goStopping_proxy : (goStopping s).proxy = s.proxy := rfl
@[simp] theorem goStopping_governor : (goStopping s).governor = s.governor := rfl
@[simp] theorem goStopping_queue : (goStopping s).queue = s.queue := rfl
@[simp] theorem goStopping_clips : (goStopping s).clips = s.clips := rfl
@[simp] theorem goStopping_writers : (goStopping s).writers = s.writers := rfl
@[simp] theorem goStopping_arbiter : (goStopping s).arbiter = s.arbiter := rfl
@[simp] theorem goStopping_lines : (goStopping s).lines = s.lines := rfl
@[simp] theorem goStopping_walker_block : (goStopping s).walker.block = s.walker.block := rfl
@[simp] theorem goStopping_walker_count : (goStopping s).walker.count = s.walker.count := rfl
@[simp] theorem goStopping_walker_continuation : (goStopping s).walker.continuation = s.walker.continuation := rfl
@[simp] theorem goStopping_walker_lastBlock : (goStopping s).walker.lastBlock = s.walker.lastBlock := rfl
@[simp] theorem goStopping_walker_lastTag : (goStopping s).walker.lastTag = s.walker.lastTag := rfl
@[simp] theorem goStopping_walker_haltRequest : (goStopping s).walker.haltRequest = s.walker.haltRequest := rfl
@[simp] theorem goStopping_walker_lastRefusal : (goStopping s).walker.lastRefusal = s.walker.lastRefusal := rfl
@[simp] theorem goStopping_notices : (goStopping s).notices = s.notices := rfl
@[simp] theorem goStopping_page : (goStopping s).page = s.page := rfl
@[simp] theorem goStopping_shared : (goStopping s).shared = s.shared := rfl
@[simp] theorem goStopping_freeTag : (goStopping s).freeTag = s.freeTag := rfl

@[simp] theorem putWriter_pending (st : Stream) (w : Writer) : (putWriter st w s).pending = s.pending := rfl
@[simp] theorem putWriter_intake (st : Stream) (w : Writer) : (putWriter st w s).intake = s.intake := rfl
@[simp] theorem putWriter_slots (st : Stream) (w : Writer) : (putWriter st w s).slots = s.slots := rfl
@[simp] theorem putWriter_inputs (st : Stream) (w : Writer) : (putWriter st w s).inputs = s.inputs := rfl
@[simp] theorem putWriter_master (st : Stream) (w : Writer) : (putWriter st w s).master = s.master := rfl
@[simp] theorem putWriter_proxy (st : Stream) (w : Writer) : (putWriter st w s).proxy = s.proxy := rfl
@[simp] theorem putWriter_governor (st : Stream) (w : Writer) : (putWriter st w s).governor = s.governor := rfl
@[simp] theorem putWriter_queue (st : Stream) (w : Writer) : (putWriter st w s).queue = s.queue := rfl
@[simp] theorem putWriter_clips (st : Stream) (w : Writer) : (putWriter st w s).clips = s.clips := rfl
@[simp] theorem putWriter_writers_grants (st : Stream) (w : Writer) : (putWriter st w s).writers.grants = s.writers.grants := rfl
@[simp] theorem putWriter_writers_watermark (st : Stream) (w : Writer) : (putWriter st w s).writers.watermark = s.writers.watermark := rfl
@[simp] theorem putWriter_writers_gapTime (st : Stream) (w : Writer) : (putWriter st w s).writers.gapTime = s.writers.gapTime := rfl
@[simp] theorem putWriter_writers_retry (st : Stream) (w : Writer) : (putWriter st w s).writers.retry = s.writers.retry := rfl
@[simp] theorem putWriter_arbiter (st : Stream) (w : Writer) : (putWriter st w s).arbiter = s.arbiter := rfl
@[simp] theorem putWriter_lines (st : Stream) (w : Writer) : (putWriter st w s).lines = s.lines := rfl
@[simp] theorem putWriter_walker (st : Stream) (w : Writer) : (putWriter st w s).walker = s.walker := rfl
@[simp] theorem putWriter_notices (st : Stream) (w : Writer) : (putWriter st w s).notices = s.notices := rfl
@[simp] theorem putWriter_page (st : Stream) (w : Writer) : (putWriter st w s).page = s.page := rfl
@[simp] theorem putWriter_shared (st : Stream) (w : Writer) : (putWriter st w s).shared = s.shared := rfl
@[simp] theorem putWriter_freeTag (st : Stream) (w : Writer) : (putWriter st w s).freeTag = s.freeTag := rfl

@[simp] theorem handResult_pending (r : Result) : (handResult r s).pending = s.pending := rfl
@[simp] theorem handResult_intake (r : Result) : (handResult r s).intake = s.intake := rfl
@[simp] theorem handResult_slots (r : Result) : (handResult r s).slots = s.slots := rfl
@[simp] theorem handResult_inputs (r : Result) : (handResult r s).inputs = s.inputs := rfl
@[simp] theorem handResult_master (r : Result) : (handResult r s).master = s.master := rfl
@[simp] theorem handResult_proxy (r : Result) : (handResult r s).proxy = s.proxy := rfl
@[simp] theorem handResult_governor (r : Result) : (handResult r s).governor = s.governor := rfl
@[simp] theorem handResult_queue (r : Result) : (handResult r s).queue = s.queue := rfl
@[simp] theorem handResult_clips (r : Result) : (handResult r s).clips = s.clips := rfl
@[simp] theorem handResult_writers (r : Result) : (handResult r s).writers = s.writers := rfl
@[simp] theorem handResult_arbiter (r : Result) : (handResult r s).arbiter = s.arbiter := rfl
@[simp] theorem handResult_lines (r : Result) : (handResult r s).lines = s.lines := rfl
@[simp] theorem handResult_walker (r : Result) : (handResult r s).walker = s.walker := rfl
@[simp] theorem handResult_notices (r : Result) : (handResult r s).notices = s.notices := rfl
@[simp] theorem handResult_page_address (r : Result) : (handResult r s).page.address = s.page.address := rfl
@[simp] theorem handResult_page_sequence (r : Result) : (handResult r s).page.sequence = s.page.sequence := rfl
@[simp] theorem handResult_page_owed (r : Result) : (handResult r s).page.owed = s.page.owed := rfl
@[simp] theorem handResult_page_begun (r : Result) : (handResult r s).page.begun = s.page.begun := rfl
@[simp] theorem handResult_page_lastKind (r : Result) : (handResult r s).page.lastKind = s.page.lastKind := rfl
@[simp] theorem handResult_shared (r : Result) : (handResult r s).shared = s.shared := rfl
@[simp] theorem handResult_freeTag (r : Result) : (handResult r s).freeTag = s.freeTag := rfl

@[simp] theorem freeGrants_pending : (freeGrants s).pending = s.pending := rfl
@[simp] theorem freeGrants_intake : (freeGrants s).intake = s.intake := rfl
@[simp] theorem freeGrants_slots : (freeGrants s).slots = s.slots := rfl
@[simp] theorem freeGrants_inputs : (freeGrants s).inputs = s.inputs := rfl
@[simp] theorem freeGrants_master : (freeGrants s).master = s.master := rfl
@[simp] theorem freeGrants_proxy : (freeGrants s).proxy = s.proxy := rfl
@[simp] theorem freeGrants_governor : (freeGrants s).governor = s.governor := rfl
@[simp] theorem freeGrants_queue : (freeGrants s).queue = s.queue := rfl
@[simp] theorem freeGrants_clips : (freeGrants s).clips = s.clips := rfl
@[simp] theorem freeGrants_writers_streams : (freeGrants s).writers.streams = s.writers.streams := rfl
@[simp] theorem freeGrants_writers_watermark : (freeGrants s).writers.watermark = s.writers.watermark := rfl
@[simp] theorem freeGrants_writers_gapTime : (freeGrants s).writers.gapTime = s.writers.gapTime := rfl
@[simp] theorem freeGrants_writers_retry : (freeGrants s).writers.retry = s.writers.retry := rfl
@[simp] theorem freeGrants_arbiter : (freeGrants s).arbiter = s.arbiter := rfl
@[simp] theorem freeGrants_lines : (freeGrants s).lines = s.lines := rfl
@[simp] theorem freeGrants_walker : (freeGrants s).walker = s.walker := rfl
@[simp] theorem freeGrants_notices : (freeGrants s).notices = s.notices := rfl
@[simp] theorem freeGrants_page : (freeGrants s).page = s.page := rfl
@[simp] theorem freeGrants_shared : (freeGrants s).shared = s.shared := rfl
@[simp] theorem freeGrants_freeTag : (freeGrants s).freeTag = s.freeTag := rfl

@[simp] theorem countReturned_pending (a : Nat) : (countReturned a s).pending = s.pending := rfl
@[simp] theorem countReturned_intake (a : Nat) : (countReturned a s).intake = s.intake := rfl
@[simp] theorem countReturned_slots (a : Nat) : (countReturned a s).slots = s.slots := rfl
@[simp] theorem countReturned_inputs (a : Nat) : (countReturned a s).inputs = s.inputs := rfl
@[simp] theorem countReturned_master (a : Nat) : (countReturned a s).master = s.master := rfl
@[simp] theorem countReturned_proxy (a : Nat) : (countReturned a s).proxy = s.proxy := rfl
@[simp] theorem countReturned_governor (a : Nat) : (countReturned a s).governor = s.governor := rfl
@[simp] theorem countReturned_queue (a : Nat) : (countReturned a s).queue = s.queue := rfl
@[simp] theorem countReturned_clips (a : Nat) : (countReturned a s).clips = s.clips := rfl
@[simp] theorem countReturned_writers_streams (a : Nat) : (countReturned a s).writers.streams = s.writers.streams := rfl
@[simp] theorem countReturned_writers_watermark (a : Nat) : (countReturned a s).writers.watermark = s.writers.watermark := rfl
@[simp] theorem countReturned_writers_gapTime (a : Nat) : (countReturned a s).writers.gapTime = s.writers.gapTime := rfl
@[simp] theorem countReturned_writers_retry (a : Nat) : (countReturned a s).writers.retry = s.writers.retry := rfl
@[simp] theorem countReturned_arbiter (a : Nat) : (countReturned a s).arbiter = s.arbiter := rfl
@[simp] theorem countReturned_lines (a : Nat) : (countReturned a s).lines = s.lines := rfl
@[simp] theorem countReturned_walker (a : Nat) : (countReturned a s).walker = s.walker := rfl
@[simp] theorem countReturned_notices (a : Nat) : (countReturned a s).notices = s.notices := rfl
@[simp] theorem countReturned_page (a : Nat) : (countReturned a s).page = s.page := rfl
@[simp] theorem countReturned_shared (a : Nat) : (countReturned a s).shared = s.shared := rfl
@[simp] theorem countReturned_freeTag (a : Nat) : (countReturned a s).freeTag = s.freeTag := rfl

@[simp] theorem changeSync_pending (f : SyncCapture → SyncCapture) : (changeSync f s).pending = s.pending := rfl
@[simp] theorem changeSync_intake (f : SyncCapture → SyncCapture) : (changeSync f s).intake = s.intake := rfl
@[simp] theorem changeSync_slots (f : SyncCapture → SyncCapture) : (changeSync f s).slots = s.slots := rfl
@[simp] theorem changeSync_inputs (f : SyncCapture → SyncCapture) : (changeSync f s).inputs = s.inputs := rfl
@[simp] theorem changeSync_master (f : SyncCapture → SyncCapture) : (changeSync f s).master = s.master := rfl
@[simp] theorem changeSync_proxy (f : SyncCapture → SyncCapture) : (changeSync f s).proxy = s.proxy := rfl
@[simp] theorem changeSync_governor (f : SyncCapture → SyncCapture) : (changeSync f s).governor = s.governor := rfl
@[simp] theorem changeSync_queue (f : SyncCapture → SyncCapture) : (changeSync f s).queue = s.queue := rfl
@[simp] theorem changeSync_clips (f : SyncCapture → SyncCapture) : (changeSync f s).clips = s.clips := rfl
@[simp] theorem changeSync_writers (f : SyncCapture → SyncCapture) : (changeSync f s).writers = s.writers := rfl
@[simp] theorem changeSync_arbiter (f : SyncCapture → SyncCapture) : (changeSync f s).arbiter = s.arbiter := rfl
@[simp] theorem changeSync_lines_lines (f : SyncCapture → SyncCapture) : (changeSync f s).lines.lines = s.lines.lines := rfl
@[simp] theorem changeSync_lines_requests (f : SyncCapture → SyncCapture) : (changeSync f s).lines.requests = s.lines.requests := rfl
@[simp] theorem changeSync_walker (f : SyncCapture → SyncCapture) : (changeSync f s).walker = s.walker := rfl
@[simp] theorem changeSync_notices (f : SyncCapture → SyncCapture) : (changeSync f s).notices = s.notices := rfl
@[simp] theorem changeSync_page (f : SyncCapture → SyncCapture) : (changeSync f s).page = s.page := rfl
@[simp] theorem changeSync_shared (f : SyncCapture → SyncCapture) : (changeSync f s).shared = s.shared := rfl
@[simp] theorem changeSync_freeTag (f : SyncCapture → SyncCapture) : (changeSync f s).freeTag = s.freeTag := rfl

@[simp] theorem dropRequest_pending (n : LineNo) : (dropRequest n s).pending = s.pending := rfl
@[simp] theorem dropRequest_intake (n : LineNo) : (dropRequest n s).intake = s.intake := rfl
@[simp] theorem dropRequest_slots (n : LineNo) : (dropRequest n s).slots = s.slots := rfl
@[simp] theorem dropRequest_inputs (n : LineNo) : (dropRequest n s).inputs = s.inputs := rfl
@[simp] theorem dropRequest_master (n : LineNo) : (dropRequest n s).master = s.master := rfl
@[simp] theorem dropRequest_proxy (n : LineNo) : (dropRequest n s).proxy = s.proxy := rfl
@[simp] theorem dropRequest_governor (n : LineNo) : (dropRequest n s).governor = s.governor := rfl
@[simp] theorem dropRequest_queue (n : LineNo) : (dropRequest n s).queue = s.queue := rfl
@[simp] theorem dropRequest_clips (n : LineNo) : (dropRequest n s).clips = s.clips := rfl
@[simp] theorem dropRequest_writers (n : LineNo) : (dropRequest n s).writers = s.writers := rfl
@[simp] theorem dropRequest_arbiter (n : LineNo) : (dropRequest n s).arbiter = s.arbiter := rfl
@[simp] theorem dropRequest_lines_lines (n : LineNo) : (dropRequest n s).lines.lines = s.lines.lines := rfl
@[simp] theorem dropRequest_lines_sync (n : LineNo) : (dropRequest n s).lines.sync = s.lines.sync := rfl
@[simp] theorem dropRequest_walker (n : LineNo) : (dropRequest n s).walker = s.walker := rfl
@[simp] theorem dropRequest_notices (n : LineNo) : (dropRequest n s).notices = s.notices := rfl
@[simp] theorem dropRequest_page (n : LineNo) : (dropRequest n s).page = s.page := rfl
@[simp] theorem dropRequest_shared (n : LineNo) : (dropRequest n s).shared = s.shared := rfl
@[simp] theorem dropRequest_freeTag (n : LineNo) : (dropRequest n s).freeTag = s.freeTag := rfl

@[simp] theorem changeClip_pending (n : Nat) (f : Clip → Clip) : (changeClip n f s).pending = s.pending := rfl
@[simp] theorem changeClip_intake (n : Nat) (f : Clip → Clip) : (changeClip n f s).intake = s.intake := rfl
@[simp] theorem changeClip_slots (n : Nat) (f : Clip → Clip) : (changeClip n f s).slots = s.slots := rfl
@[simp] theorem changeClip_inputs (n : Nat) (f : Clip → Clip) : (changeClip n f s).inputs = s.inputs := rfl
@[simp] theorem changeClip_master (n : Nat) (f : Clip → Clip) : (changeClip n f s).master = s.master := rfl
@[simp] theorem changeClip_proxy (n : Nat) (f : Clip → Clip) : (changeClip n f s).proxy = s.proxy := rfl
@[simp] theorem changeClip_governor (n : Nat) (f : Clip → Clip) : (changeClip n f s).governor = s.governor := rfl
@[simp] theorem changeClip_queue (n : Nat) (f : Clip → Clip) : (changeClip n f s).queue = s.queue := rfl
@[simp] theorem changeClip_clips_nextNumber (n : Nat) (f : Clip → Clip) : (changeClip n f s).clips.nextNumber = s.clips.nextNumber := rfl
@[simp] theorem changeClip_clips_recentStart (n : Nat) (f : Clip → Clip) : (changeClip n f s).clips.recentStart = s.clips.recentStart := rfl
@[simp] theorem changeClip_clips_rollFloor (n : Nat) (f : Clip → Clip) : (changeClip n f s).clips.rollFloor = s.clips.rollFloor := rfl
@[simp] theorem changeClip_clips_held (n : Nat) (f : Clip → Clip) : (changeClip n f s).clips.held = s.clips.held := rfl
@[simp] theorem changeClip_clips_heldLost (n : Nat) (f : Clip → Clip) : (changeClip n f s).clips.heldLost = s.clips.heldLost := rfl
@[simp] theorem changeClip_clips_lastEvent (n : Nat) (f : Clip → Clip) : (changeClip n f s).clips.lastEvent = s.clips.lastEvent := rfl
@[simp] theorem changeClip_clips_tallyMode (n : Nat) (f : Clip → Clip) : (changeClip n f s).clips.tallyMode = s.clips.tallyMode := rfl
@[simp] theorem changeClip_clips_blinkTime (n : Nat) (f : Clip → Clip) : (changeClip n f s).clips.blinkTime = s.clips.blinkTime := rfl
@[simp] theorem changeClip_clips_lamp (n : Nat) (f : Clip → Clip) : (changeClip n f s).clips.lamp = s.clips.lamp := rfl
@[simp] theorem changeClip_clips_blinkTimer (n : Nat) (f : Clip → Clip) : (changeClip n f s).clips.blinkTimer = s.clips.blinkTimer := rfl
@[simp] theorem changeClip_writers (n : Nat) (f : Clip → Clip) : (changeClip n f s).writers = s.writers := rfl
@[simp] theorem changeClip_arbiter (n : Nat) (f : Clip → Clip) : (changeClip n f s).arbiter = s.arbiter := rfl
@[simp] theorem changeClip_lines (n : Nat) (f : Clip → Clip) : (changeClip n f s).lines = s.lines := rfl
@[simp] theorem changeClip_walker (n : Nat) (f : Clip → Clip) : (changeClip n f s).walker = s.walker := rfl
@[simp] theorem changeClip_notices (n : Nat) (f : Clip → Clip) : (changeClip n f s).notices = s.notices := rfl
@[simp] theorem changeClip_page (n : Nat) (f : Clip → Clip) : (changeClip n f s).page = s.page := rfl
@[simp] theorem changeClip_shared (n : Nat) (f : Clip → Clip) : (changeClip n f s).shared = s.shared := rfl
@[simp] theorem changeClip_freeTag (n : Nat) (f : Clip → Clip) : (changeClip n f s).freeTag = s.freeTag := rfl

@[simp] theorem freeClip_pending (n : Nat) : (freeClip n s).pending = s.pending := rfl
@[simp] theorem freeClip_intake (n : Nat) : (freeClip n s).intake = s.intake := rfl
@[simp] theorem freeClip_slots (n : Nat) : (freeClip n s).slots = s.slots := rfl
@[simp] theorem freeClip_inputs (n : Nat) : (freeClip n s).inputs = s.inputs := rfl
@[simp] theorem freeClip_master (n : Nat) : (freeClip n s).master = s.master := rfl
@[simp] theorem freeClip_proxy (n : Nat) : (freeClip n s).proxy = s.proxy := rfl
@[simp] theorem freeClip_governor (n : Nat) : (freeClip n s).governor = s.governor := rfl
@[simp] theorem freeClip_queue (n : Nat) : (freeClip n s).queue = s.queue := rfl
@[simp] theorem freeClip_clips_nextNumber (n : Nat) : (freeClip n s).clips.nextNumber = s.clips.nextNumber := rfl
@[simp] theorem freeClip_clips_recentStart (n : Nat) : (freeClip n s).clips.recentStart = s.clips.recentStart := rfl
@[simp] theorem freeClip_clips_rollFloor (n : Nat) : (freeClip n s).clips.rollFloor = s.clips.rollFloor := rfl
@[simp] theorem freeClip_clips_held (n : Nat) : (freeClip n s).clips.held = s.clips.held := rfl
@[simp] theorem freeClip_clips_heldLost (n : Nat) : (freeClip n s).clips.heldLost = s.clips.heldLost := rfl
@[simp] theorem freeClip_clips_lastEvent (n : Nat) : (freeClip n s).clips.lastEvent = s.clips.lastEvent := rfl
@[simp] theorem freeClip_clips_tallyMode (n : Nat) : (freeClip n s).clips.tallyMode = s.clips.tallyMode := rfl
@[simp] theorem freeClip_clips_blinkTime (n : Nat) : (freeClip n s).clips.blinkTime = s.clips.blinkTime := rfl
@[simp] theorem freeClip_clips_lamp (n : Nat) : (freeClip n s).clips.lamp = s.clips.lamp := rfl
@[simp] theorem freeClip_clips_blinkTimer (n : Nat) : (freeClip n s).clips.blinkTimer = s.clips.blinkTimer := rfl
@[simp] theorem freeClip_writers (n : Nat) : (freeClip n s).writers = s.writers := rfl
@[simp] theorem freeClip_arbiter (n : Nat) : (freeClip n s).arbiter = s.arbiter := rfl
@[simp] theorem freeClip_lines (n : Nat) : (freeClip n s).lines = s.lines := rfl
@[simp] theorem freeClip_walker (n : Nat) : (freeClip n s).walker = s.walker := rfl
@[simp] theorem freeClip_notices (n : Nat) : (freeClip n s).notices = s.notices := rfl
@[simp] theorem freeClip_page (n : Nat) : (freeClip n s).page = s.page := rfl
@[simp] theorem freeClip_shared (n : Nat) : (freeClip n s).shared = s.shared := rfl
@[simp] theorem freeClip_freeTag (n : Nat) : (freeClip n s).freeTag = s.freeTag := rfl

@[simp] theorem clipEvent_pending (e : ClipEvent) (n : Nat) : (clipEvent e n s).pending = s.pending := rfl
@[simp] theorem clipEvent_intake (e : ClipEvent) (n : Nat) : (clipEvent e n s).intake = s.intake := rfl
@[simp] theorem clipEvent_slots (e : ClipEvent) (n : Nat) : (clipEvent e n s).slots = s.slots := rfl
@[simp] theorem clipEvent_inputs (e : ClipEvent) (n : Nat) : (clipEvent e n s).inputs = s.inputs := rfl
@[simp] theorem clipEvent_master (e : ClipEvent) (n : Nat) : (clipEvent e n s).master = s.master := rfl
@[simp] theorem clipEvent_proxy (e : ClipEvent) (n : Nat) : (clipEvent e n s).proxy = s.proxy := rfl
@[simp] theorem clipEvent_governor (e : ClipEvent) (n : Nat) : (clipEvent e n s).governor = s.governor := rfl
@[simp] theorem clipEvent_queue (e : ClipEvent) (n : Nat) : (clipEvent e n s).queue = s.queue := rfl
@[simp] theorem clipEvent_clips_table (e : ClipEvent) (n : Nat) : (clipEvent e n s).clips.table = s.clips.table := rfl
@[simp] theorem clipEvent_clips_nextNumber (e : ClipEvent) (n : Nat) : (clipEvent e n s).clips.nextNumber = s.clips.nextNumber := rfl
@[simp] theorem clipEvent_clips_recentStart (e : ClipEvent) (n : Nat) : (clipEvent e n s).clips.recentStart = s.clips.recentStart := rfl
@[simp] theorem clipEvent_clips_rollFloor (e : ClipEvent) (n : Nat) : (clipEvent e n s).clips.rollFloor = s.clips.rollFloor := rfl
@[simp] theorem clipEvent_clips_held (e : ClipEvent) (n : Nat) : (clipEvent e n s).clips.held = s.clips.held := rfl
@[simp] theorem clipEvent_clips_heldLost (e : ClipEvent) (n : Nat) : (clipEvent e n s).clips.heldLost = s.clips.heldLost := rfl
@[simp] theorem clipEvent_clips_tallyMode (e : ClipEvent) (n : Nat) : (clipEvent e n s).clips.tallyMode = s.clips.tallyMode := rfl
@[simp] theorem clipEvent_clips_blinkTime (e : ClipEvent) (n : Nat) : (clipEvent e n s).clips.blinkTime = s.clips.blinkTime := rfl
@[simp] theorem clipEvent_clips_lamp (e : ClipEvent) (n : Nat) : (clipEvent e n s).clips.lamp = s.clips.lamp := rfl
@[simp] theorem clipEvent_clips_blinkTimer (e : ClipEvent) (n : Nat) : (clipEvent e n s).clips.blinkTimer = s.clips.blinkTimer := rfl
@[simp] theorem clipEvent_writers (e : ClipEvent) (n : Nat) : (clipEvent e n s).writers = s.writers := rfl
@[simp] theorem clipEvent_arbiter (e : ClipEvent) (n : Nat) : (clipEvent e n s).arbiter = s.arbiter := rfl
@[simp] theorem clipEvent_lines (e : ClipEvent) (n : Nat) : (clipEvent e n s).lines = s.lines := rfl
@[simp] theorem clipEvent_walker (e : ClipEvent) (n : Nat) : (clipEvent e n s).walker = s.walker := rfl
@[simp] theorem clipEvent_notices_mask (e : ClipEvent) (n : Nat) : (clipEvent e n s).notices.mask = s.notices.mask := rfl
@[simp] theorem clipEvent_notices_log (e : ClipEvent) (n : Nat) : (clipEvent e n s).notices.log = s.notices.log := rfl
@[simp] theorem clipEvent_notices_later (e : ClipEvent) (n : Nat) : (clipEvent e n s).notices.later = s.notices.later := rfl
@[simp] theorem clipEvent_notices_freeze (e : ClipEvent) (n : Nat) : (clipEvent e n s).notices.freeze = s.notices.freeze := rfl
@[simp] theorem clipEvent_page_address (e : ClipEvent) (n : Nat) : (clipEvent e n s).page.address = s.page.address := rfl
@[simp] theorem clipEvent_page_sequence (e : ClipEvent) (n : Nat) : (clipEvent e n s).page.sequence = s.page.sequence := rfl
@[simp] theorem clipEvent_page_begun (e : ClipEvent) (n : Nat) : (clipEvent e n s).page.begun = s.page.begun := rfl
@[simp] theorem clipEvent_page_lastKind (e : ClipEvent) (n : Nat) : (clipEvent e n s).page.lastKind = s.page.lastKind := rfl
@[simp] theorem clipEvent_page_results (e : ClipEvent) (n : Nat) : (clipEvent e n s).page.results = s.page.results := rfl
@[simp] theorem clipEvent_shared (e : ClipEvent) (n : Nat) : (clipEvent e n s).shared = s.shared := rfl
@[simp] theorem clipEvent_freeTag (e : ClipEvent) (n : Nat) : (clipEvent e n s).freeTag = s.freeTag := rfl

@[simp] theorem dropHeldMarks_pending (x : Frame) : (dropHeldMarks x s).pending = s.pending := rfl
@[simp] theorem dropHeldMarks_intake (x : Frame) : (dropHeldMarks x s).intake = s.intake := rfl
@[simp] theorem dropHeldMarks_slots (x : Frame) : (dropHeldMarks x s).slots = s.slots := rfl
@[simp] theorem dropHeldMarks_inputs (x : Frame) : (dropHeldMarks x s).inputs = s.inputs := rfl
@[simp] theorem dropHeldMarks_master (x : Frame) : (dropHeldMarks x s).master = s.master := rfl
@[simp] theorem dropHeldMarks_proxy (x : Frame) : (dropHeldMarks x s).proxy = s.proxy := rfl
@[simp] theorem dropHeldMarks_governor (x : Frame) : (dropHeldMarks x s).governor = s.governor := rfl
@[simp] theorem dropHeldMarks_queue (x : Frame) : (dropHeldMarks x s).queue = s.queue := rfl
@[simp] theorem dropHeldMarks_clips_table (x : Frame) : (dropHeldMarks x s).clips.table = s.clips.table := rfl
@[simp] theorem dropHeldMarks_clips_nextNumber (x : Frame) : (dropHeldMarks x s).clips.nextNumber = s.clips.nextNumber := rfl
@[simp] theorem dropHeldMarks_clips_recentStart (x : Frame) : (dropHeldMarks x s).clips.recentStart = s.clips.recentStart := rfl
@[simp] theorem dropHeldMarks_clips_rollFloor (x : Frame) : (dropHeldMarks x s).clips.rollFloor = s.clips.rollFloor := rfl
@[simp] theorem dropHeldMarks_clips_heldLost (x : Frame) : (dropHeldMarks x s).clips.heldLost = s.clips.heldLost := rfl
@[simp] theorem dropHeldMarks_clips_lastEvent (x : Frame) : (dropHeldMarks x s).clips.lastEvent = s.clips.lastEvent := rfl
@[simp] theorem dropHeldMarks_clips_tallyMode (x : Frame) : (dropHeldMarks x s).clips.tallyMode = s.clips.tallyMode := rfl
@[simp] theorem dropHeldMarks_clips_blinkTime (x : Frame) : (dropHeldMarks x s).clips.blinkTime = s.clips.blinkTime := rfl
@[simp] theorem dropHeldMarks_clips_lamp (x : Frame) : (dropHeldMarks x s).clips.lamp = s.clips.lamp := rfl
@[simp] theorem dropHeldMarks_clips_blinkTimer (x : Frame) : (dropHeldMarks x s).clips.blinkTimer = s.clips.blinkTimer := rfl
@[simp] theorem dropHeldMarks_writers (x : Frame) : (dropHeldMarks x s).writers = s.writers := rfl
@[simp] theorem dropHeldMarks_arbiter (x : Frame) : (dropHeldMarks x s).arbiter = s.arbiter := rfl
@[simp] theorem dropHeldMarks_lines (x : Frame) : (dropHeldMarks x s).lines = s.lines := rfl
@[simp] theorem dropHeldMarks_walker (x : Frame) : (dropHeldMarks x s).walker = s.walker := rfl
@[simp] theorem dropHeldMarks_notices (x : Frame) : (dropHeldMarks x s).notices = s.notices := rfl
@[simp] theorem dropHeldMarks_page (x : Frame) : (dropHeldMarks x s).page = s.page := rfl
@[simp] theorem dropHeldMarks_shared (x : Frame) : (dropHeldMarks x s).shared = s.shared := rfl
@[simp] theorem dropHeldMarks_freeTag (x : Frame) : (dropHeldMarks x s).freeTag = s.freeTag := rfl

@[simp] theorem floorAtNext_pending : (floorAtNext s).pending = s.pending := rfl
@[simp] theorem floorAtNext_intake : (floorAtNext s).intake = s.intake := rfl
@[simp] theorem floorAtNext_slots : (floorAtNext s).slots = s.slots := rfl
@[simp] theorem floorAtNext_inputs : (floorAtNext s).inputs = s.inputs := rfl
@[simp] theorem floorAtNext_master : (floorAtNext s).master = s.master := rfl
@[simp] theorem floorAtNext_proxy : (floorAtNext s).proxy = s.proxy := rfl
@[simp] theorem floorAtNext_governor : (floorAtNext s).governor = s.governor := rfl
@[simp] theorem floorAtNext_queue : (floorAtNext s).queue = s.queue := rfl
@[simp] theorem floorAtNext_clips_table : (floorAtNext s).clips.table = s.clips.table := rfl
@[simp] theorem floorAtNext_clips_nextNumber : (floorAtNext s).clips.nextNumber = s.clips.nextNumber := rfl
@[simp] theorem floorAtNext_clips_recentStart : (floorAtNext s).clips.recentStart = s.clips.recentStart := rfl
@[simp] theorem floorAtNext_clips_held : (floorAtNext s).clips.held = s.clips.held := rfl
@[simp] theorem floorAtNext_clips_heldLost : (floorAtNext s).clips.heldLost = s.clips.heldLost := rfl
@[simp] theorem floorAtNext_clips_lastEvent : (floorAtNext s).clips.lastEvent = s.clips.lastEvent := rfl
@[simp] theorem floorAtNext_clips_tallyMode : (floorAtNext s).clips.tallyMode = s.clips.tallyMode := rfl
@[simp] theorem floorAtNext_clips_blinkTime : (floorAtNext s).clips.blinkTime = s.clips.blinkTime := rfl
@[simp] theorem floorAtNext_clips_lamp : (floorAtNext s).clips.lamp = s.clips.lamp := rfl
@[simp] theorem floorAtNext_clips_blinkTimer : (floorAtNext s).clips.blinkTimer = s.clips.blinkTimer := rfl
@[simp] theorem floorAtNext_writers : (floorAtNext s).writers = s.writers := rfl
@[simp] theorem floorAtNext_arbiter : (floorAtNext s).arbiter = s.arbiter := rfl
@[simp] theorem floorAtNext_lines : (floorAtNext s).lines = s.lines := rfl
@[simp] theorem floorAtNext_walker : (floorAtNext s).walker = s.walker := rfl
@[simp] theorem floorAtNext_notices : (floorAtNext s).notices = s.notices := rfl
@[simp] theorem floorAtNext_page : (floorAtNext s).page = s.page := rfl
@[simp] theorem floorAtNext_shared : (floorAtNext s).shared = s.shared := rfl
@[simp] theorem floorAtNext_freeTag : (floorAtNext s).freeTag = s.freeTag := rfl

@[simp] theorem putSlot_pending (i : Nat) (x : Slot) : (putSlot i x s).pending = s.pending := rfl
@[simp] theorem putSlot_intake (i : Nat) (x : Slot) : (putSlot i x s).intake = s.intake := rfl
@[simp] theorem putSlot_inputs (i : Nat) (x : Slot) : (putSlot i x s).inputs = s.inputs := rfl
@[simp] theorem putSlot_master (i : Nat) (x : Slot) : (putSlot i x s).master = s.master := rfl
@[simp] theorem putSlot_proxy (i : Nat) (x : Slot) : (putSlot i x s).proxy = s.proxy := rfl
@[simp] theorem putSlot_governor (i : Nat) (x : Slot) : (putSlot i x s).governor = s.governor := rfl
@[simp] theorem putSlot_queue (i : Nat) (x : Slot) : (putSlot i x s).queue = s.queue := rfl
@[simp] theorem putSlot_clips (i : Nat) (x : Slot) : (putSlot i x s).clips = s.clips := rfl
@[simp] theorem putSlot_writers (i : Nat) (x : Slot) : (putSlot i x s).writers = s.writers := rfl
@[simp] theorem putSlot_arbiter (i : Nat) (x : Slot) : (putSlot i x s).arbiter = s.arbiter := rfl
@[simp] theorem putSlot_lines (i : Nat) (x : Slot) : (putSlot i x s).lines = s.lines := rfl
@[simp] theorem putSlot_walker (i : Nat) (x : Slot) : (putSlot i x s).walker = s.walker := rfl
@[simp] theorem putSlot_notices (i : Nat) (x : Slot) : (putSlot i x s).notices = s.notices := rfl
@[simp] theorem putSlot_page (i : Nat) (x : Slot) : (putSlot i x s).page = s.page := rfl
@[simp] theorem putSlot_shared (i : Nat) (x : Slot) : (putSlot i x s).shared = s.shared := rfl
@[simp] theorem putSlot_freeTag (i : Nat) (x : Slot) : (putSlot i x s).freeTag = s.freeTag := rfl

@[simp] theorem releaseSlot_pending (i : Nat) : (releaseSlot i s).pending = s.pending := rfl
@[simp] theorem releaseSlot_intake (i : Nat) : (releaseSlot i s).intake = s.intake := rfl
@[simp] theorem releaseSlot_inputs (i : Nat) : (releaseSlot i s).inputs = s.inputs := rfl
@[simp] theorem releaseSlot_master (i : Nat) : (releaseSlot i s).master = s.master := rfl
@[simp] theorem releaseSlot_proxy (i : Nat) : (releaseSlot i s).proxy = s.proxy := rfl
@[simp] theorem releaseSlot_governor (i : Nat) : (releaseSlot i s).governor = s.governor := rfl
@[simp] theorem releaseSlot_queue (i : Nat) : (releaseSlot i s).queue = s.queue := rfl
@[simp] theorem releaseSlot_clips (i : Nat) : (releaseSlot i s).clips = s.clips := rfl
@[simp] theorem releaseSlot_writers (i : Nat) : (releaseSlot i s).writers = s.writers := rfl
@[simp] theorem releaseSlot_arbiter (i : Nat) : (releaseSlot i s).arbiter = s.arbiter := rfl
@[simp] theorem releaseSlot_lines (i : Nat) : (releaseSlot i s).lines = s.lines := rfl
@[simp] theorem releaseSlot_walker (i : Nat) : (releaseSlot i s).walker = s.walker := rfl
@[simp] theorem releaseSlot_notices (i : Nat) : (releaseSlot i s).notices = s.notices := rfl
@[simp] theorem releaseSlot_page (i : Nat) : (releaseSlot i s).page = s.page := rfl
@[simp] theorem releaseSlot_shared (i : Nat) : (releaseSlot i s).shared = s.shared := rfl
@[simp] theorem releaseSlot_freeTag (i : Nat) : (releaseSlot i s).freeTag = s.freeTag := rfl

@[simp] theorem clearArrival_pending : (clearArrival s).pending = s.pending := rfl
@[simp] theorem clearArrival_intake_state : (clearArrival s).intake.state = s.intake.state := rfl
@[simp] theorem clearArrival_intake_geometry : (clearArrival s).intake.geometry = s.intake.geometry := rfl
@[simp] theorem clearArrival_intake_counter : (clearArrival s).intake.counter = s.intake.counter := rfl
@[simp] theorem clearArrival_intake_timecode : (clearArrival s).intake.timecode = s.intake.timecode := rfl
@[simp] theorem clearArrival_intake_lost : (clearArrival s).intake.lost = s.intake.lost := rfl
@[simp] theorem clearArrival_intake_malformed : (clearArrival s).intake.malformed = s.intake.malformed := rfl
@[simp] theorem clearArrival_slots : (clearArrival s).slots = s.slots := rfl
@[simp] theorem clearArrival_inputs : (clearArrival s).inputs = s.inputs := rfl
@[simp] theorem clearArrival_master : (clearArrival s).master = s.master := rfl
@[simp] theorem clearArrival_proxy : (clearArrival s).proxy = s.proxy := rfl
@[simp] theorem clearArrival_governor : (clearArrival s).governor = s.governor := rfl
@[simp] theorem clearArrival_queue : (clearArrival s).queue = s.queue := rfl
@[simp] theorem clearArrival_clips : (clearArrival s).clips = s.clips := rfl
@[simp] theorem clearArrival_writers : (clearArrival s).writers = s.writers := rfl
@[simp] theorem clearArrival_arbiter : (clearArrival s).arbiter = s.arbiter := rfl
@[simp] theorem clearArrival_lines : (clearArrival s).lines = s.lines := rfl
@[simp] theorem clearArrival_walker : (clearArrival s).walker = s.walker := rfl
@[simp] theorem clearArrival_notices : (clearArrival s).notices = s.notices := rfl
@[simp] theorem clearArrival_page : (clearArrival s).page = s.page := rfl
@[simp] theorem clearArrival_shared : (clearArrival s).shared = s.shared := rfl
@[simp] theorem clearArrival_freeTag : (clearArrival s).freeTag = s.freeTag := rfl

@[simp] theorem putLabel_pending (l : Label) : (putLabel l s).pending = s.pending := rfl
@[simp] theorem putLabel_intake_state (l : Label) : (putLabel l s).intake.state = s.intake.state := rfl
@[simp] theorem putLabel_intake_geometry (l : Label) : (putLabel l s).intake.geometry = s.intake.geometry := rfl
@[simp] theorem putLabel_intake_arrival (l : Label) : (putLabel l s).intake.arrival = s.intake.arrival := rfl
@[simp] theorem putLabel_intake_counter (l : Label) : (putLabel l s).intake.counter = s.intake.counter := rfl
@[simp] theorem putLabel_intake_lost (l : Label) : (putLabel l s).intake.lost = s.intake.lost := rfl
@[simp] theorem putLabel_intake_malformed (l : Label) : (putLabel l s).intake.malformed = s.intake.malformed := rfl
@[simp] theorem putLabel_slots (l : Label) : (putLabel l s).slots = s.slots := rfl
@[simp] theorem putLabel_inputs (l : Label) : (putLabel l s).inputs = s.inputs := rfl
@[simp] theorem putLabel_master (l : Label) : (putLabel l s).master = s.master := rfl
@[simp] theorem putLabel_proxy (l : Label) : (putLabel l s).proxy = s.proxy := rfl
@[simp] theorem putLabel_governor (l : Label) : (putLabel l s).governor = s.governor := rfl
@[simp] theorem putLabel_queue (l : Label) : (putLabel l s).queue = s.queue := rfl
@[simp] theorem putLabel_clips (l : Label) : (putLabel l s).clips = s.clips := rfl
@[simp] theorem putLabel_writers (l : Label) : (putLabel l s).writers = s.writers := rfl
@[simp] theorem putLabel_arbiter (l : Label) : (putLabel l s).arbiter = s.arbiter := rfl
@[simp] theorem putLabel_lines (l : Label) : (putLabel l s).lines = s.lines := rfl
@[simp] theorem putLabel_walker (l : Label) : (putLabel l s).walker = s.walker := rfl
@[simp] theorem putLabel_notices (l : Label) : (putLabel l s).notices = s.notices := rfl
@[simp] theorem putLabel_page (l : Label) : (putLabel l s).page = s.page := rfl
@[simp] theorem putLabel_shared (l : Label) : (putLabel l s).shared = s.shared := rfl
@[simp] theorem putLabel_freeTag (l : Label) : (putLabel l s).freeTag = s.freeTag := rfl

@[simp] theorem goStopped_pending : (goStopped s).pending = s.pending := rfl
@[simp] theorem goStopped_intake_geometry : (goStopped s).intake.geometry = s.intake.geometry := rfl
@[simp] theorem goStopped_intake_arrival : (goStopped s).intake.arrival = s.intake.arrival := rfl
@[simp] theorem goStopped_intake_counter : (goStopped s).intake.counter = s.intake.counter := rfl
@[simp] theorem goStopped_intake_timecode : (goStopped s).intake.timecode = s.intake.timecode := rfl
@[simp] theorem goStopped_intake_lost : (goStopped s).intake.lost = s.intake.lost := rfl
@[simp] theorem goStopped_intake_malformed : (goStopped s).intake.malformed = s.intake.malformed := rfl
@[simp] theorem goStopped_slots : (goStopped s).slots = s.slots := rfl
@[simp] theorem goStopped_inputs : (goStopped s).inputs = s.inputs := rfl
@[simp] theorem goStopped_master : (goStopped s).master = s.master := rfl
@[simp] theorem goStopped_proxy : (goStopped s).proxy = s.proxy := rfl
@[simp] theorem goStopped_governor : (goStopped s).governor = s.governor := rfl
@[simp] theorem goStopped_queue : (goStopped s).queue = s.queue := rfl
@[simp] theorem goStopped_clips : (goStopped s).clips = s.clips := rfl
@[simp] theorem goStopped_writers : (goStopped s).writers = s.writers := rfl
@[simp] theorem goStopped_arbiter : (goStopped s).arbiter = s.arbiter := rfl
@[simp] theorem goStopped_lines_lines : (goStopped s).lines.lines = s.lines.lines := rfl
@[simp] theorem goStopped_lines_requests : (goStopped s).lines.requests = s.lines.requests := rfl
@[simp] theorem goStopped_walker : (goStopped s).walker = s.walker := rfl
@[simp] theorem goStopped_notices : (goStopped s).notices = s.notices := rfl
@[simp] theorem goStopped_page : (goStopped s).page = s.page := rfl
@[simp] theorem goStopped_shared : (goStopped s).shared = s.shared := rfl
@[simp] theorem goStopped_freeTag : (goStopped s).freeTag = s.freeTag := rfl

@[simp] theorem writeMask_pending (v : BitVec 32) : (writeMask v s).pending = s.pending := rfl
@[simp] theorem writeMask_intake (v : BitVec 32) : (writeMask v s).intake = s.intake := rfl
@[simp] theorem writeMask_slots (v : BitVec 32) : (writeMask v s).slots = s.slots := rfl
@[simp] theorem writeMask_inputs (v : BitVec 32) : (writeMask v s).inputs = s.inputs := rfl
@[simp] theorem writeMask_master (v : BitVec 32) : (writeMask v s).master = s.master := rfl
@[simp] theorem writeMask_proxy (v : BitVec 32) : (writeMask v s).proxy = s.proxy := rfl
@[simp] theorem writeMask_governor (v : BitVec 32) : (writeMask v s).governor = s.governor := rfl
@[simp] theorem writeMask_queue (v : BitVec 32) : (writeMask v s).queue = s.queue := rfl
@[simp] theorem writeMask_clips (v : BitVec 32) : (writeMask v s).clips = s.clips := rfl
@[simp] theorem writeMask_writers (v : BitVec 32) : (writeMask v s).writers = s.writers := rfl
@[simp] theorem writeMask_arbiter (v : BitVec 32) : (writeMask v s).arbiter = s.arbiter := rfl
@[simp] theorem writeMask_lines (v : BitVec 32) : (writeMask v s).lines = s.lines := rfl
@[simp] theorem writeMask_walker (v : BitVec 32) : (writeMask v s).walker = s.walker := rfl
@[simp] theorem writeMask_notices_pending (v : BitVec 32) : (writeMask v s).notices.pending = s.notices.pending := rfl
@[simp] theorem writeMask_notices_log (v : BitVec 32) : (writeMask v s).notices.log = s.notices.log := rfl
@[simp] theorem writeMask_notices_later (v : BitVec 32) : (writeMask v s).notices.later = s.notices.later := rfl
@[simp] theorem writeMask_notices_freeze (v : BitVec 32) : (writeMask v s).notices.freeze = s.notices.freeze := rfl
@[simp] theorem writeMask_page (v : BitVec 32) : (writeMask v s).page = s.page := rfl
@[simp] theorem writeMask_shared (v : BitVec 32) : (writeMask v s).shared = s.shared := rfl
@[simp] theorem writeMask_freeTag (v : BitVec 32) : (writeMask v s).freeTag = s.freeTag := rfl

end Sys2Proof.Laws
end

