-- ==== Sys2Proof/Laws/Walking.lean ====
section
/-! SUPPORT. What completing, going in flight, taking a directive and ending a burst do, in the words of the
statements. -/

namespace Sys2Proof.Laws

open Sys2Proof.Machine

theorem goUnlessStopping_state (to_ : WalkerState) (w : Walker) :
    goUnlessStopping to_ w = { w with state := if w.state = .stopping then .stopping else to_ } := by
  unfold goUnlessStopping
  split
  · rename_i h; exact h ▸ rfl
  · rfl

theorem complete_eq (v : Verdict) (detail : Nat) {b : Block} {s : State} (h : s.walker.block = some b) :
    complete v detail s = answered v detail b s := by
  unfold complete answered
  simp [h, putStage, changeBlock, changeWalker, requestBurst, goUnlessStopping_state, Quad.set, outcomeBytes]

theorem goInFlight_eq (f : Flight) {b : Block} {s : State} (h : s.walker.block = some b) :
    goInFlight f s = inFlight f b s := by
  unfold goInFlight inFlight
  simp [h, putStage, changeBlock, changeWalker]

theorem handedBlock_eq {kind : DirectiveKind} {b : Block} {s : State} (h : InHand kind b s) :
    s.handedBlock kind = some b := by
  obtain ⟨e, g, k⟩ := h
  simp [State.handedBlock, e, g, k]

theorem takeDirective_eq {kind : DirectiveKind} (act : Block → State → State) {b : Block} {s : State}
    (h : InHand kind b s) : takeDirective kind act s = settle (act b s) := by
  simp [takeDirective, handedBlock_eq h]

theorem flight_eq {f : Flight} {b : Block} {s : State} (h : FliesAs f b s) : s.flight = some f := by
  obtain ⟨e, g⟩ := h
  simp [State.flight, e, g]

theorem flight_inHand {kind : DirectiveKind} {b : Block} {s : State} (h : InHand kind b s) :
    s.flight = none := by
  obtain ⟨e, g, _⟩ := h
  simp [State.flight, e, g]

theorem endBurst_eq (r : Requester) (b : Burst) (s : State) : endBurst r b s = portEnded r b s := rfl

theorem answerOk_eq {r : Requester} {kind : BurstKind} (act : Burst → State → State) {b : Burst} {s : State}
    (h : OnPort r kind b s) : answerOk r kind act s = settle (act b (portEnded r b s)) := by
  obtain ⟨p, q, rfl, o⟩ := h
  simp [answerOk, State.onPort, State.inProgress, State.orphan, p, q, o, endBurst_eq, Option.filter]

theorem calm_answered (v : Verdict) (detail : Nat) (b : Block) {s : State}
    (m : (s.writer .master).relinquish = none) (p : (s.writer .proxy).relinquish = none)
    : Calm (answered v detail b s) := by
  refine ⟨m, p, ?_, by simp [State.flight, answered]⟩
  by_cases h : s.walker.state = .stopping
  · simp [answered, h]
  · simp [answered, h]

theorem calm_asks (burst : Burst) (stage : Stage) (b : Block) {s : State}
    (m : (s.writer .master).relinquish = none) (p : (s.writer .proxy).relinquish = none)
    (n : s.walker.state ≠ .resetting) (f : ∀ g, stage ≠ .inFlight g) : Calm (walkerAsks burst stage b s) := by
  refine ⟨m, p, n, ?_⟩
  cases stage <;> simp_all [State.flight, walkerAsks]

end Sys2Proof.Laws
end

