-- ==== Sys2Proof/WellFormed.lean ====
section
/-! DEFINITION. Which commands are well formed: the checks on operands that the constructors' types do
not already make. -/

namespace Sys2Proof

/-- The most payload bytes a master attempt can give: the raw size of the largest picture,
4096×2176×3 (R25, section 1.5). -/
def maxMasterPayload : Nat := 4096 * 2176 * 3

/-- The most payload bytes a proxy picture can give: Wp×Hp×3 at the largest geometry and f = 2 (R43). -/
def maxProxyPayload : Nat := 2048 * 1088 * 3

/-- The operand checks: a payload is 1 byte up to the largest raw size (R25, R43), a header is 32 bytes
(R161), a body burst carries 1 to 288 bytes (nine units, R162), a table burst 1 to 66 (R31, R47), a
pixel line is not empty (section 1.1), and an ignored write goes to IDENT or to 0x14 to 0x1F (R178). -/
def Instr.wellFormed : Instr → Bool
  | .line pixels _ => !pixels.isEmpty
  | .attemptEnd n => decide (1 ≤ n ∧ n ≤ maxMasterPayload)
  | .proxyCodingEnd n => decide (1 ≤ n ∧ n ≤ maxProxyPayload)
  | .headerFetchDone bytes => decide (bytes.length = 32)
  | .bodyFetchDone bytes => decide (1 ≤ bytes.length ∧ bytes.length ≤ 288)
  | .tableSourceReadDone bytes => decide (1 ≤ bytes.length ∧ bytes.length ≤ 66)
  | .ignoredRegisterWrite offset _ => decide (offset = 0 ∨ 0x14 ≤ offset.toNat)
  | .fullReset | .frameStart _ | .frameEnd | .activityTableInitEnd | .lookCurveInitEnd | .entry _
  | .setup | .tune | .lines | .loadTable | .grant | .relinquish | .startIntake | .stopIntake
  | .intakeDrained | .roll _ | .cut _ | .mark _ | .setTimecode | .wait | .outcomeWriteDone
  | .refusedSlotWriteDone | .walkerReturnedCountDone | .halt | .resume | .stop | .freeze _
  | .engineReset | .engineResetComplete | .notice _ | .noticeMask _ | .pageRewriteDone
  | .writerBurstDone | .gapTimerExpiry _ | .resultSlotBurstDone | .resultCountBurstDone
  | .burstRetry | .burstError | .rawLevelChange _ _ _ | .filterTimerExpiry _ _ | .toggle _
  | .blinkTimerExpiry => true

end Sys2Proof
end

