-- ==== Sys2Proof/Tests/Slice0.lean ====
section
/-! SUPPORT. Tests: ill-formed commands that WellFormed refuses, the manual's worked values, and for each
statement with hypotheses a concrete state and operands that meet them. -/

namespace Sys2Proof.Tests

open Sys2Proof Sys2Proof.Machine

/-! ## WellFormed refuses -/

theorem test_line_without_pixels : (Instr.line [] 0).wellFormed = false := by decide
theorem test_attempt_without_payload : (Instr.attemptEnd 0).wellFormed = false := by decide
theorem test_attempt_too_large : (Instr.attemptEnd 26738689).wellFormed = false := by decide
theorem test_proxy_without_payload : (Instr.proxyCodingEnd 0).wellFormed = false := by decide
theorem test_header_of_31_bytes : (Instr.headerFetchDone (List.replicate 31 0)).wellFormed = false := by decide
theorem test_body_without_bytes : (Instr.bodyFetchDone []).wellFormed = false := by decide
theorem test_source_without_bytes : (Instr.tableSourceReadDone []).wellFormed = false := by decide
theorem test_mask_is_not_ignored : (Instr.ignoredRegisterWrite 0x10 0).wellFormed = false := by decide

/-! ## The manual's worked values -/

/-- Section 1.10, worked case: drop-frame at code 3. -/
theorem test_drop_frame_skips_two :
    nextLabel (rateOf 3) ⟨0, 0, 59, 29, true⟩ = ⟨0, 1, 0, 2, true⟩ := by decide
/-- Section 1.10, worked case: minute 10 is divisible by 10. -/
theorem test_drop_frame_keeps_minute_ten :
    nextLabel (rateOf 3) ⟨0, 9, 59, 29, true⟩ = ⟨0, 10, 0, 0, true⟩ := by decide
/-- Section 1.10, worked case, comments 3 and 4. -/
theorem test_drop_frame_code_seven :
    nextLabel (rateOf 7) ⟨0, 0, 59, 59, true⟩ = ⟨0, 1, 0, 4, true⟩
      ∧ nextLabel (rateOf 3) ⟨23, 59, 59, 29, true⟩ = ⟨0, 0, 0, 0, true⟩ := by decide
/-- Section 1.10, examples of SET_TIMECODE: raised, as given, and out of range twice. -/
theorem test_set_timecode_examples :
    raiseSkipped (rateOf 7) ⟨12, 34, 0, 1, true⟩ = ⟨12, 34, 0, 4, true⟩
      ∧ raiseSkipped (rateOf 7) ⟨12, 30, 0, 1, true⟩ = ⟨12, 30, 0, 1, true⟩
      ∧ labelFits (rateOf 2) ⟨10, 0, 0, 0, true⟩ = false ∧ labelFits (rateOf 11) ⟨1, 2, 3, 120, false⟩ = false
      ∧ labelFits (rateOf 11) ⟨1, 2, 3, 119, false⟩ = true := by decide
/-- Section 2.3, example: tile steps, the last three rows but one and the last. -/
theorem test_tile_steps :
    tileStep (some (List.replicate 64 0)) [-2, 0, 2, 4] 1 5 = 1
      ∧ tileStep (some (List.replicate 64 3)) [-2, 0, 2, 4] 62 5 = 63
      ∧ tileStep none [-2, 0, 2, 4] 62 5 = 62 := by decide
/-- Section 3.6, examples of the mean: half is rounded up. -/
theorem test_mean_rounds_half_up :
    windowMean [1000, 1003, 1001, 1002] = 1002 ∧ windowMean [100, 100, 101, 101] = 101 := by decide
/-- Section 3.7, worked cases of the look curve: 4095, 4032 and 2000 under the identity. -/
theorem test_identity_curve :
    curveOutput identityCurve 4095 = 4094 ∧ curveOutput identityCurve 4032 = 4032
      ∧ curveOutput identityCurve 2000 = 2000 := by decide
/-- Section 3.9, example: adjusting a loaded curve, source B: 13 points adjusted. -/
theorem test_curve_source_b :
    countDifferent (adjustPoints 0 (List.replicate 20 7 ++ 5000 :: List.replicate 12 4000))
      (List.replicate 20 7 ++ 5000 :: List.replicate 12 4000) = 13 := by decide

/-- The governor of section 4.8: R 8,000, rate code 0, k 8, t 8, SKIP, Q 20 at the start. -/
def skipGovernor : Governor :=
  governorSetup (rateOf 0) { Governor.reset with inputs := ⟨.skip, 8000, 8, 8, 4, 40, 20⟩ }

/-- Section 4.8, picture 1: C 213,664 and Q 19 after it. -/
theorem test_skip_first_picture :
    let g := afterCompletion 120000 (afterDecision (rateOf 0) skipGovernor)
    g.credit = 213664 ∧ g.step = 19 ∧ g.remainder = 8000 := by decide
/-- Section 4.8, picture 3: a debt of one whole allowance raises Q by 2. -/
theorem test_skip_third_picture :
    let g := afterCompletion 200000 (afterDecision (rateOf 0)
      { skipGovernor with credit := 75372, remainder := 16000, step := 19 })
    g.credit = -82919 ∧ g.step = 21 ∧ g.remainder = 0 := by decide
/-- Section 4.8, picture 4: V below T is a REPEAT that costs 32 bytes. -/
theorem test_skip_repeats :
    let g := afterDecision (rateOf 0) { skipGovernor with credit := -82919, step := 21 }
    g.credit = -41243 ∧ g.step = 21 ∧ g.repeats = 1 ∧ g.openPicture = false := by decide
/-- Section 4.9, picture 1: a debt below −B is cut back and counted. -/
theorem test_degrade_overrun :
    let start := governorSetup (rateOf 11) { Governor.reset with inputs := ⟨.degrade, 2000, 4, 8, 10, 30, 12⟩ }
    let g := afterCompletion 30000 (afterDecision (rateOf 11) start)
    g.credit = -8332 ∧ g.overruns = 1 ∧ g.step = 17 := by decide
/-- Section 4.10: a TUNE to R 4,000 clamps C to the new B and clears r. -/
theorem test_tune_clamps_credit :
    let g := governorTune (some (rateOf 0)) ⟨2, 4000, 8, 8, 4, 40, 20⟩
      { skipGovernor with credit := 200000, remainder := 8000, step := 22 }
    g.credit = 166832 ∧ g.remainder = 0 ∧ g.step = 22 ∧ g.skipAt = 10427 := by decide
/-- Section 8.6, examples of phase: 0.3 ms, 39.5 ms and 41 ms at 25/1. -/
theorem test_phases :
    phaseOf (rateOf 2) 300000 = 30 ∧ phaseOf (rateOf 2) 39500000 = 4044 ∧ deviation 4044 = 52
      ∧ phaseOf (rateOf 2) 41000000 = 4095 := by decide
/-- Section 8.7, losing and regaining sync: the fourth miss is LOST, the fourth hit LOCKED. -/
theorem test_sync_runs :
    ({ SyncCapture.reset with state := .locked, missRun := 3 }).afterMiss.state = .lost
      ∧ ({ SyncCapture.reset with state := .lost, hitRun := 2 }).afterHit.state = .lost
      ∧ ({ SyncCapture.reset with state := .lost, hitRun := 3 }).afterHit.state = .locked := by decide
/-- R178: the ENTRY record and IDENT after full reset. -/
theorem test_registers_after_reset :
    readRegister 0x00 State.reset = 0x72305001 ∧ readRegister 0x04 State.reset = 0
      ∧ readRegister 0x08 State.reset = 0 := by decide
/-- R179: a CONTROL write of HALT and STOP under FREEZE asks for both and the level. -/
theorem test_control_write :
    writeCommands 0x08 0xFFFFFFED = [.freeze true, .halt, .stop] := by decide
/-- Chapter 11: the status page is 256 bytes. -/
theorem test_page_length : (statusPage State.reset).length = 256 := by decide +kernel

/-- A block at 0x40200: kind, length in units, body, stage. -/
def blockAt (kind units : Nat) (body : List Byte) (stage : Stage) : Block :=
  ⟨0x40200, [BitVec.ofNat 8 kind, 0, BitVec.ofNat 8 units] ++ List.replicate 29 0, body, stage, false⟩

/-- Slots of a GRANT's body: address and length. -/
def slotBytes (a l : Nat) : List Byte := leBytes 8 a ++ leBytes 4 l ++ List.replicate 20 0

/-- Section 7.2, example: a GRANT with refusals: slots 0 and 4 of six are taken. -/
theorem test_grant_with_refusals :
    let b := blockAt 5 8 ([1, 6] ++ List.replicate 30 0 ++ slotBytes 0x200000000 0x100000
      ++ slotBytes 0x200100800 0x100000 ++ slotBytes 0x200000000 0x100000 ++ slotBytes 0x200200000 0xC000
      ++ slotBytes 0x200300000 0x200000 ++ slotBytes 0x200500000 0x200000) .handed
    (gradeSlots b 6 0 [] 46).1.map Segment.slot = [0, 4]
      ∧ (gradeSlots b 6 0 [] 46).2
        = [(1, .refusedForm), (2, .refusedDuplicate), (3, .refusedForm), (5, .refusedFull)] := by decide +kernel

/-! ## States and operands that meet the hypotheses of the statements -/

/-- The geometry 1280 × 720, factor 4, at 25 frames a second. -/
def geo : Geometry := ⟨1280, 720, 4, 2⟩

/-- Intake is RUNNING under `geo`, and nothing else has happened. -/
def run : State :=
  { State.reset with
    intake := { Intake.reset with state := .running, geometry := some geo, counter := 9 }
    governor := governorSetup (rateOf 2) Governor.reset }

/-- A slot item of frame 7. -/
def item : SlotItem := ⟨0, 7, ⟨0, 0, 0, 7, false⟩, false, 0⟩

/-- A picture in the Master Coder, without a cap. -/
def pic : MasterPicture := ⟨item, 1280, 720, ⟨16, 0, [-2, 0, 2, 4]⟩, none, [3], 1, 16, [16], none⟩

/-- A picture in the Proxy Path. -/
def proxyPic : ProxyPicture := ⟨item, geo, .short, 20, none, []⟩

/-- Both coders are CODING the picture of slot 0. -/
def busy : State :=
  { run with
    slots := ⟨.ready, 2, []⟩ :: List.replicate 15 Slot.empty
    master := { MasterCoder.reset with picture := some pic }
    proxy := { ProxyPath.reset with picture := some proxyPic } }

/-- Frame 8 is in arrival in slot 1, with `lines` lines. -/
def arriving (lines : Nat) (bad : Bool) : Arrival := ⟨8, ⟨0, 0, 0, 8, false⟩, false, 0, some 1, lines, bad⟩

/-- `s` with a frame in arrival. -/
def withArrival (a : Arrival) (s : State) : State := { s with intake := { s.intake with arrival := some a } }

/-- `s` with a block in the walker's hand. -/
def withBlock (w : WalkerState) (b : Block) (s : State) : State :=
  { s with walker := { s.walker with state := w, block := some b } }

/-- `s` with the burst of a requester on the port. -/
def withBurst (r : Requester) (b : Burst) (s : State) : State :=
  { s with arbiter := { s.arbiter with port := some r, bursts := s.arbiter.bursts.set (some b) r } }

/-- A clip that is RECORDING from frame 5, and both its streams have reached frame 7. -/
def clip : Clip :=
  { number := 3, first := 5, closing := none, start := none, marks := [], lostMarks := 0, reach := ⟨7, 7⟩
    counts := ⟨⟨0, 0, 0, 0, 0, 0⟩, ⟨0, 0, 0, 0, 0, 0⟩⟩, overrunMark := 0, repeatMark := 0
    queued := ⟨false, false⟩, written := ⟨false, false⟩ }

/-- `s` with one clip in the table and a most recent start. -/
def withClips (c : Clip) (recent : Option Frame) (s : State) : State :=
  { s with clips := { s.clips with
    table := [some c, none, none, none], nextNumber := 4, recentStart := recent, lamp := .lit } }

/-- `s` with one request of line 0 waiting. -/
def withRequest (q : LineRequest) (s : State) : State :=
  { s with lines := { s.lines with requests := [(0, q)] } }

/-- An entry of the clip. -/
def entryOf (kind : EntryKind) (size : Nat) : Entry :=
  ⟨kind, .master, 6, 1, ⟨0, 0, 0, 6, false⟩, some 3, size, false, false, false, 16, 1, 0, .coded 0⟩

/-- A segment of 65,536 bytes, of slot 0 of the grant block at 0x40000. -/
def segment : Segment := ⟨0x100000, 65536, 0x40000, 0⟩

/-- The segment as the current one, at a position. -/
def current (position : Nat) : Current := ⟨segment, position, some 0, some 3, some 6, 1, false⟩

/-- `s` with the master writer's parts replaced. -/
def withWriter (segments : List Segment) (c : Option Current) (written : Nat) (s : State) : State :=
  { s with writers := { s.writers with streams :=
    ⟨{ Writer.reset with segments := segments, current := c, written := written }, Writer.reset⟩ } }

/-- `s` with entries in the master queue. -/
def withQueue (entries : List Entry) (s : State) : State :=
  { s with queue := { s.queue with queues := ⟨⟨entries, false⟩, ⟨[], false⟩⟩ } }

/-- The burst of the master writer: 100 bytes. -/
def writerBytes : Burst := ⟨.entry, 0x100000, 100, List.replicate 100 0⟩

/-- A result of the master stream. -/
def result (counted : Bool) : Result := ⟨.master, segment, 0, 0, 0, 0, false, .relinquished, false, counted⟩

/-- The pending queue of `s` replaced. -/
def queued (c : Instr) (s : State) : State := { s with pending := [c] }

/-- A stream is the master or the proxy. -/
theorem each_stream {P : Stream → Prop} (m : P .master) (p : P .proxy) : ∀ st, P st
  | .master => m
  | .proxy => p

/-- A requester is one of four. -/
theorem each_requester {P : Requester → Prop} (w : P .walker) (g : P .page) (m : P .master) (p : P .proxy) :
    ∀ r, P r
  | .walker => w
  | .page => g
  | .master => m
  | .proxy => p

theorem no_frames {s : State} (h : s.flight = none) : ∀ n, s.flight ≠ some (.frames n) := by simp [h]

theorem witness_StepTakesFront : (queued .halt run).pending = .halt :: [] ∧ run.pending = [] := by decide

theorem witness_StepKeepsShape : Shaped (queued .halt run) ∧ ∃ t, step (queued .halt run) = .next t :=
  ⟨⟨by decide, by decide, by decide, by decide⟩, _, rfl⟩

theorem witness_StepKeepsTables :
    TablesSound (queued .halt run) ∧ LoadSound (queued .halt run) ∧ ∃ t, step (queued .halt run) = .next t := by
  refine ⟨⟨by decide, by decide, by decide, by decide, by decide⟩, ⟨?_, ?_, ?_, ?_⟩, _, rfl⟩
  · intro h; cases h
  · intro h; cases h
  · intro b h; cases h
  · intro b got h; cases h

theorem witness_StepKeepsGovernor :
    GovernorSound (queued .halt run) ∧ ∃ t, step (queued .halt run) = .next t := by
  refine ⟨⟨by decide, by decide, by decide, by decide, ?_, ?_, by decide, by decide, by decide⟩, _, rfl⟩
  · intro g h; cases h; decide
  · intro h; cases h

theorem witness_StepKeepsHeld : HeldSound (queued .halt run) ∧ ∃ t, step (queued .halt run) = .next t :=
  ⟨⟨by decide, by decide, by decide⟩, _, rfl⟩

theorem witness_StepKeepsClips :
    ClipsSound (queued .halt (withClips clip (some 6) run))
      ∧ ∃ t, step (queued .halt (withClips clip (some 6) run)) = .next t :=
  ⟨⟨by decide, by decide, by decide, by decide, by decide, by decide, by decide, by intro _; decide, by decide⟩,
    _, rfl⟩

theorem witness_StepKeepsSegments :
    SegmentsSound (queued .halt (withWriter [segment] none 0 run))
      ∧ ∃ t, step (queued .halt (withWriter [segment] none 0 run)) = .next t :=
  ⟨⟨by decide, each_stream (by decide) (by decide), each_stream (by decide) (by decide),
    each_stream (by decide) (by decide)⟩, _, rfl⟩

theorem witness_StepKeepsPort :
    PortSound (queued .halt (withBurst .master writerBytes run))
      ∧ ∃ t, step (queued .halt (withBurst .master writerBytes run)) = .next t := by
  refine ⟨⟨?_, ?_⟩, _, rfl⟩
  · intro r h; cases h; rfl
  · intro h; cases h

theorem witness_NoticesStay :
    (∃ t, exec (.notice 2) (raise .chain run) = .next t) ∧ Instr.notice 2 ≠ .fullReset
      ∧ (∀ v, Instr.notice 2 = .notice v → v.getLsbD 0 = false ∧ v.getLsbD 14 = false)
      ∧ (raise .chain run).isPending .chain = true
      ∧ (reportFault ⟨.frameLost, .pictureIntake, none, none, none⟩ run).isPending .fault = true := by
  refine ⟨⟨_, rfl⟩, by decide, ?_, by decide, by decide⟩
  intro v h; cases h; decide

/-- A fault finds FAULT clear and the log empty, or FAULT pending with the log's count at its end (R181), and
writes to NOTICE with bit 14 as 1 and as 0 (R182). -/
theorem witness_NoticesStay_log :
    let f : FaultReport := ⟨.frameLost, .pictureIntake, none, some 1000, none⟩
    let full : State := { reportFault f run with notices := { (reportFault f run).notices with later := 255 } }
    run.isPending .fault = false ∧ run.notices.log = none
      ∧ ({ run with page := { run.page with address := some 0x50000 } } : State).page.address ≠ none
      ∧ (reportFault f run).notices.log = some f
      ∧ full.isPending .fault = true ∧ full.notices.later = 255
      ∧ (0x4000#32).getLsbD 14 = true ∧ (0x0002#32).getLsbD 14 = false := by decide

/-- A page rewrite of one byte is on the port. -/
def rewriting : State := withBurst .page ⟨.rewrite, 0x50000, 1, [7]⟩ run

theorem witness_MemoryOnlyByBursts :
    ∃ t, exec .pageRewriteDone rewriting = .next t ∧ readByte t.shared 0x50000 ≠ readByte rewriting.shared 0x50000 :=
  ⟨_, rfl, by decide +kernel⟩

theorem witness_SettingsOnlyByOwners : (∃ t, exec .halt run = .next t) ∧ Instr.halt ≠ .fullReset :=
  ⟨⟨_, rfl⟩, by decide⟩

/-- A lost frame in arrival. -/
def lostArrival : Arrival := { arriving 0 false with slot := none }

theorem witness_FrameStartClaims_lost :
    Calm (withArrival lostArrival run) ∧ ∀ a, (withArrival lostArrival run).intake.arrival = some a → a.slot = none :=
  ⟨by decide, by intro a h; cases h; rfl⟩

theorem witness_FrameStartClaims :
    Calm run ∧ run.intake.state = .running ∧ run.intake.arrival = none ∧ run.slots[0]? = some Slot.empty
      ∧ Slot.empty.state = .free ∧ (∀ y ∈ run.slots.take 0, y.state ≠ .free)
      ∧ (∀ l ∈ run.lines.lines, l.role ≠ .syncRef) ∧ ∀ n, run.flight ≠ some (.frames n) :=
  ⟨by decide, by decide, by decide, by decide, by decide, by decide, by decide, no_frames rfl⟩

/-- Both coders are CODING and no slot is FREE. -/
def full : State := { busy with slots := List.replicate 16 ⟨.ready, 2, []⟩ }

theorem witness_FrameStartLost :
    Calm full ∧ full.intake.state = .running ∧ full.intake.arrival = none
      ∧ (∀ x ∈ full.slots, x.state ≠ .free) ∧ full.master.picture.isSome = true
      ∧ full.proxy.picture.isSome = true ∧ (∀ l ∈ full.lines.lines, l.role ≠ .syncRef)
      ∧ ∀ n, full.flight ≠ some (.frames n) :=
  ⟨by decide, by decide, by decide, by decide, by decide, by decide, by decide, no_frames rfl⟩

/-- Both coders are IDLE and no slot is FREE. -/
def idleFull : State := { run with slots := List.replicate 16 ⟨.filling, 0, []⟩ }

theorem witness_FrameStartLost_idle :
    (∀ s ∈ [idleFull, withClips clip (some 8) idleFull],
      Calm s ∧ s.intake.state = .running ∧ s.intake.arrival = none ∧ (∀ x ∈ s.slots, x.state ≠ .free)
        ∧ (∀ l ∈ s.lines.lines, l.role ≠ .syncRef) ∧ s.flight = none ∧ s.master.picture = none
        ∧ s.proxy.picture = none ∧ s.inputs = ⟨[], []⟩ ∧ HasRoom .master 32 s ∧ HasRoom .proxy 32 s)
    ∧ idleFull.clipList = [] ∧ idleFull.queue.depth = 0 ∧ TakesFrame clip 9 (withClips clip (some 8) idleFull)
    ∧ idleFull.intake.counter = 9 := by decide

theorem witness_FrameStartCountsTimecode :
    run.intake.state = .running ∧ run.intake.geometry = some geo
      ∧ labelFits (rateOf geo.code) run.intake.timecode = true
      ∧ isSkipped (rateOf geo.code) run.intake.timecode = false := by decide

theorem witness_LineTaken :
    (let s := withArrival (arriving 0 false) run
    s.intake.state ≠ .stopped ∧ s.intake.arrival = some (arriving 0 false)
      ∧ (arriving 0 false).slot = some 1 ∧ s.intake.geometry = some geo)
    ∧ ((withArrival lostArrival run).intake.arrival = some lostArrival ∧ lostArrival.slot = none)
    ∧ State.reset.intake.state = .stopped ∧ run.intake.arrival = none := by decide

theorem witness_FrameEndEnds :
    (∀ a ∈ [arriving 720 false, arriving 719 false, { arriving 0 false with slot := none }],
      let s := withArrival a busy
      Calm s ∧ s.intake.state ≠ .stopped ∧ s.intake.arrival = some a ∧ s.intake.geometry = some geo
        ∧ s.master.picture.isSome = true ∧ s.proxy.picture.isSome = true)
    ∧ ((arriving 720 false).slot = some 1 ∧ (arriving 720 false).bad = false
      ∧ (arriving 720 false).lines = geo.height)
    ∧ ((arriving 719 false).slot = some 1 ∧ (arriving 719 false).lines ≠ geo.height)
    ∧ 1 < (withArrival (arriving 720 false) busy).slots.length := by decide

theorem witness_FrameEndEnds_stopping :
    let stopping : State := { busy with intake := { busy.intake with state := .stopping } }
    (Calm stopping ∧ stopping.intake.state = .stopping ∧ stopping.intake.arrival = none)
      ∧ ∀ a ∈ [lostArrival, arriving 720 false], Calm (withArrival a stopping)
        ∧ (withArrival a stopping).intake.arrival = some a ∧ (withArrival a stopping).master.picture.isSome = true
        ∧ (withArrival a stopping).proxy.picture.isSome = true ∧ (a.slot = none ∨ a.slot = some 1) := by decide

/-- `busy` with a master picture under a cap of 64 KiB, at an attempt and its step. -/
def capped (attempt step : Nat) : MasterPicture :=
  { pic with settings := ⟨60, 64, [-2, 0, 2, 4]⟩, attempt := attempt, step := step }

/-- `busy` with that picture. -/
def underCap (attempt step : Nat) : State :=
  { busy with master := { busy.master with picture := some (capped attempt step) } }

theorem witness_AttemptEndFurther :
    Calm (underCap 1 60) ∧ (underCap 1 60).master.picture = some (capped 1 60) ∧ 1 ≤ 65505
      ∧ 65505 ≤ (capped 1 60).width * (capped 1 60).height * 3 ∧ (capped 1 60).settings.cap ≠ 0
      ∧ (capped 1 60).settings.cap * 1024 < 65505 + 32
      ∧ ((capped 1 60).attempt = 1 ∧ 63 = min ((capped 1 60).settings.step + 4) 63)
      ∧ 63 ≠ (capped 1 60).step := by decide

theorem witness_AttemptEndCompletes :
    (Calm busy ∧ busy.master.picture = some pic ∧ 1 ≤ 100 ∧ 100 ≤ pic.width * pic.height * 3
      ∧ busy.inputs.master = [] ∧ busy.slots[pic.item.slot]? = some ⟨.ready, 2, []⟩
      ∧ ¬ (pic.settings.cap ≠ 0 ∧ pic.settings.cap * 1024 < 100 + 32)
      ∧ busy.clipList = [] ∧ busy.queue.depth = 0)
    ∧ ((capped 2 63).attempt = 2 ∧ (capped 2 63).step = min ((capped 2 63).settings.step + 8) 63
      ∧ (capped 2 63).settings.cap * 1024 < 65505 + 32)
    ∧ (let s := withClips clip (some 7) busy
      Calm s ∧ TakesFrame clip pic.item.frame s ∧ HasRoom .master (100 + 32) s) := by decide

/-- `busy` with a gap of two frames behind the master picture, a clip RECORDING, and one reference left. -/
def gapBehind : State :=
  { withClips clip (some 9) busy with
    inputs := ⟨[.gap 8 2 ⟨0, 0, 0, 8, false⟩], []⟩
    slots := ⟨.ready, 1, []⟩ :: List.replicate 15 Slot.empty }

theorem witness_AttemptEndCompletes_gap :
    Calm gapBehind ∧ gapBehind.master.picture = some pic ∧ gapBehind.slots[pic.item.slot]? = some ⟨.ready, 1, []⟩
      ∧ gapBehind.inputs.master = [.gap 8 2 ⟨0, 0, 0, 8, false⟩] ∧ TakesFrame clip pic.item.frame gapBehind
      ∧ (∀ i, i < 2 → TakesFrame clip (8 + BitVec.ofNat 32 i) gapBehind)
      ∧ (gapBehind.entries .master).length + 1 + (2 + 65534) / 65535 ≤ 8188
      ∧ bytesInUse (gapBehind.entries .master) + (100 + 32) + 32 * 1 + 1280 ≤ 6442450944 := by decide

/-- `busy` with pre-roll on: a depth of one second, 25 frames. -/
def prerolling : State := { busy with queue := { busy.queue with depth := 1, limit := 25 } }

theorem witness_HeldEntryJoins :
    (Calm prerolling ∧ prerolling.master.picture = some pic ∧ pic.settings.cap = 0
      ∧ prerolling.inputs.master = [] ∧ prerolling.slots[pic.item.slot]? = some ⟨.ready, 2, []⟩
      ∧ prerolling.clipList = [] ∧ 0 < prerolling.queue.depth ∧ prerolling.intake.geometry ≠ none
      ∧ isBelow pic.item.frame prerolling.queue.agingLine = false
      ∧ heldFrames (prerolling.entries .master) < prerolling.queue.limit)
    ∧ isBelow pic.item.frame { prerolling.queue with agingLine := 8 }.agingLine = true := by decide

/-- `prerolling` with one master entry of a clip or held that leaves no room, and a clip closed at frame 6. -/
def pressed (owner : Option Nat) : State :=
  withQueue [{ entryOf .coded 6442450000 with clip := owner }]
    (withClips { clip with closing := some ⟨6, .cutStopped⟩ } none prerolling)

theorem witness_HeldEntryJoins_pressure :
    (∀ owner ∈ [none, some 3],
      Calm (pressed owner) ∧ (pressed owner).master.picture = some pic
        ∧ (∀ d ∈ (pressed owner).clipList, d.closing.any (fun k => isBelow k.last pic.item.frame) = true)
        ∧ isBelow pic.item.frame (pressed owner).queue.agingLine = false
        ∧ ¬ HasRoom .master (100 + 32) (pressed owner) ∧ (pressed owner).entries .proxy = [])
    ∧ (let old := { entryOf .coded 6442450000 with clip := none }
      (pressed none).entries .master = [old] ∧ old.count = 1 ∧ isBelow old.frame pic.item.frame = true)
    ∧ (∀ y ∈ (pressed (some 3)).entries .master, y.clip ≠ none)
    ∧ heldFrames [] < (pressed none).queue.limit := by decide

/-- The master queue holds one entry that leaves no room. -/
def crowded : State := withQueue [entryOf .coded 6442450000] (withClips { clip with reach := ⟨7, 6⟩ } none busy)

theorem witness_FullQueueBreaks :
    Calm crowded ∧ crowded.master.picture = some pic ∧ crowded.inputs.master = []
      ∧ crowded.clipList = [{ clip with reach := ⟨7, 6⟩ }] ∧ isBelow pic.item.frame clip.first = false
      ∧ (∀ e ∈ crowded.entries .master,
        e.clip ≠ none ∧ isBelow (frameAfter e.frame e.count - 1) pic.item.frame = true)
      ∧ crowded.entries .proxy = [] ∧ isBelow 6 pic.item.frame = true
      ∧ 6442450944 < bytesInUse (crowded.entries .master) + (100 + 32) + 1280 := by decide

/-- `crowded` with a proxy queue that has gone on: a GAP over frame 7, and a REPEAT above it. -/
def crowdedProxy : State :=
  let s := withClips { clip with reach := ⟨7, 10⟩ } none crowded
  { s with queue := { s.queue with queues := ⟨s.queue.queues.master,
    ⟨[{ entryOf .gap 32 with stream := .proxy, count := 3 },
      { entryOf .repeated 32 with stream := .proxy, frame := 9 }], false⟩⟩ } }

theorem witness_FullQueueBreaks_removed :
    Calm crowdedProxy ∧ crowdedProxy.master.picture = some pic ∧ crowdedProxy.inputs.master = []
      ∧ crowdedProxy.clipList = [{ clip with reach := ⟨7, 10⟩ }] ∧ isBelow pic.item.frame clip.first = false
      ∧ (∀ e ∈ crowdedProxy.entries .master ++ crowdedProxy.entries .proxy,
        e.clip = some clip.number ∧ e.kind ≠ .trailer)
      ∧ (∀ e ∈ crowdedProxy.entries .master, isBelow (frameAfter e.frame e.count - 1) pic.item.frame = true)
      ∧ isBelow pic.item.frame 10 = true ∧ clip.queued = ⟨false, false⟩
      ∧ ¬ HasRoom .master (100 + 32) crowdedProxy := by decide

/-- A good frame has arrived in slot 1, and the Master Coder is IDLE. -/
def masterIdle : State :=
  withArrival (arriving 720 false) { busy with master := { busy.master with picture := none } }

/-- A good frame has arrived in slot 1, and the Proxy Path is IDLE under a governor mode. -/
def proxyIdle (mode : GovernorMode) (credit : Int) : State :=
  withArrival (arriving 720 false)
    { busy with
      proxy := { busy.proxy with picture := none }
      governor := { busy.governor with inputs := { busy.governor.inputs with mode := mode }, credit := credit } }

theorem witness_FrameEndBegins :
    (Calm masterIdle ∧ masterIdle.intake.arrival = some (arriving 720 false)
      ∧ masterIdle.intake.geometry = some geo ∧ masterIdle.slots[1]? = some Slot.empty
      ∧ masterIdle.master.picture = none ∧ masterIdle.inputs.master = []
      ∧ masterIdle.proxy.picture.isSome = true)
    ∧ (let s := proxyIdle .off 0
      Calm s ∧ s.intake.arrival = some (arriving 720 false) ∧ s.slots[1]? = some Slot.empty
        ∧ s.master.picture.isSome = true ∧ s.proxy.picture = none ∧ s.inputs.proxy = []
        ∧ s.governor.inputs.mode = .off)
    ∧ ([[⟨1, 2⟩, ⟨9, 2⟩], [⟨3, 4⟩, ⟨3, 4⟩]] : List (List Pixel)).length = 2
    ∧ ∀ l ∈ ([[⟨1, 2⟩, ⟨9, 2⟩], [⟨3, 4⟩, ⟨3, 4⟩]] : List (List Pixel)), l.length = 2 := by decide

theorem witness_FrameEndDecides_clip :
    let s := withClips clip (some 8) (proxyIdle .skip (-400000))
    Calm s ∧ s.intake.arrival = some (arriving 720 false) ∧ s.governor.inputs.mode = .skip
      ∧ min (s.governor.credit + ((s.governor.n + s.governor.remainder) / 25 : Nat)) s.governor.burst
        < s.governor.skipAt
      ∧ TakesFrame clip (arriving 720 false).frame s ∧ HasRoom .proxy 32 s := by decide

theorem witness_FrameEndDecides :
    ∀ credit ∈ [(-400000 : Int), 400000],
      let s := proxyIdle .skip credit
      Calm s ∧ s.intake.state ≠ .stopped ∧ s.intake.arrival = some (arriving 720 false)
        ∧ s.intake.geometry = some geo ∧ s.slots[1]? = some Slot.empty
        ∧ s.master.picture.isSome = true ∧ s.proxy.picture = none ∧ s.inputs.proxy = []
        ∧ s.governor.inputs.mode ≠ .off
        ∧ (credit < 0 ↔ min (credit + ((s.governor.n + s.governor.remainder) / 25 : Nat)) s.governor.burst
          < s.governor.skipAt) := by decide

theorem witness_ProxyCodingEndCharges :
    Calm busy ∧ busy.proxy.picture = some proxyPic ∧ 1 ≤ 100
      ∧ 100 ≤ (proxyPic.geometry.width / proxyPic.geometry.factor)
        * (proxyPic.geometry.height / proxyPic.geometry.factor) * 3
      ∧ busy.inputs.proxy = [] ∧ busy.slots[proxyPic.item.slot]? = some ⟨.ready, 2, []⟩
      ∧ busy.clipList = [] ∧ busy.queue.depth = 0 := by decide

/-- `busy` with a clip RECORDING and a proxy queue of `size` bytes, all the clip's. -/
def proxyQueue (size : Nat) : State :=
  let s := withClips clip (some 8) busy
  { s with queue := { s.queue with queues := ⟨⟨[], false⟩,
    ⟨[{ entryOf .coded size with stream := .proxy }], false⟩⟩ } }

theorem witness_ProxyCodingEndCharges_clip :
    (∀ size ∈ [100, 1073740512],
      Calm (proxyQueue size) ∧ (proxyQueue size).proxy.picture = some proxyPic
        ∧ TakesFrame clip proxyPic.item.frame (proxyQueue size) ∧ HasRoom .proxy 32 (proxyQueue size)
        ∧ (proxyQueue size).entries .master = [] ∧ ∀ y ∈ (proxyQueue size).entries .proxy, y.clip ≠ none)
    ∧ HasRoom .proxy (100 + 32) (proxyQueue 100) ∧ ¬ HasRoom .proxy (100 + 32) (proxyQueue 1073740512) := by decide

/-- The clip of `proxyQueue` is CLOSING at the frame in the proxy coder's hand, which the master has covered. -/
def lastFrameInHand : State :=
  let c := { clip with closing := some ⟨proxyPic.item.frame, .cutStopped⟩, reach := ⟨proxyPic.item.frame + 1, 7⟩ }
  withClips c (some 8) (proxyQueue 100)

theorem witness_ProxyCodingEndCharges_trailers :
    Calm lastFrameInHand ∧ lastFrameInHand.proxy.picture = some proxyPic
      ∧ lastFrameInHand.clipList.map (fun c =>
          (c.closing.map Closing.last, c.reach.master, c.queued, c.number))
        = [(some proxyPic.item.frame, proxyPic.item.frame + 1, ⟨false, false⟩, clip.number)]
      ∧ isBelow proxyPic.item.frame clip.first = false
      ∧ (∀ st ∈ [Stream.master, Stream.proxy], ∀ y ∈ lastFrameInHand.entries st, y.clip = some clip.number)
      ∧ HasRoom .proxy (100 + 32) lastFrameInHand := by decide

/-- Two OVERSIZE pieces reported with the count at its maximum less one are counted once, and a break that
removes both takes one back (R103, R105). -/
theorem test_oversize_taken_back :
    let e : Entry := { entryOf .coded 100 with oversize := true }
    let n : Counts := ⟨70000, 0, 0, 65534, 0, 0⟩
    (addPiece e (addPiece e n)).oversize = 65535
      ∧ takeBackPiece e (takeBackPiece e (addPiece e (addPiece e n))) = n := by decide

/-- A LOAD_TABLE of the activity table, or of the look curve, from 0x60000. -/
def loadBlock (table : Nat) (stage : Stage) : Block :=
  blockAt 4 2 (leBytes 1 table ++ leBytes 1 (3 * (1 - table)) ++ leBytes 1 (if table = 0 then 20 else 33)
    ++ List.replicate 5 0 ++ leBytes 8 0x60000 ++ List.replicate 16 0) stage

theorem witness_TablesBecomeReady :
    (Calm run ∧ run.master.tableState = .initialising ∧ run.proxy.curveState = .initialising
      ∧ run.flight ≠ some .loadTable)
    ∧ ∀ table ∈ [0, 1],
      let b := loadBlock table (.inFlight .loadTable)
      let s := withBlock .waiting b run
      Calm s ∧ FliesAs .loadTable b s ∧ s.walker.state = .waiting ∧ b.loadFields.table = table := by decide

/-- A block of one unit in flight. -/
def unitFlight (kind : Nat) (f : Flight) : Block := blockAt kind 1 [] (.inFlight f)

/-- A ROLL in flight while a line's ROLL waits too. -/
def rolling (s : State) : State := withRequest .roll (withBlock .waiting (unitFlight 9 .roll) s)

/-- A CUT in flight while a line's CUT waits too. -/
def cutting (s : State) : State := withRequest .cut (withBlock .waiting (unitFlight 10 .cut) s)

/-- `s` with four clips in the table, all CLOSING. -/
def tableFull (s : State) : State :=
  { s with clips := { s.clips with
    table := [1, 2, 3, 4].map fun n => some { clip with number := n, closing := some ⟨6, .cutStopped⟩ } } }

theorem witness_RollOpens :
    Calm (rolling run) ∧ MayOpen 0 (rolling run) ∧ FliesAs .roll (unitFlight 9 .roll) (rolling run)
      ∧ firstRequest 0 (rolling run).lines.requests = some .roll :=
  ⟨by decide, ⟨by decide, by decide, by decide, by decide, by decide, each_stream (by decide) (by decide)⟩,
    by decide, by decide⟩

theorem witness_RollRefused :
    (∀ s ∈ [withClips clip none run, State.reset, tableFull run],
      Calm (rolling s) ∧ FliesAs .roll (unitFlight 9 .roll) (rolling s)
        ∧ firstRequest 0 (rolling s).lines.requests = some .roll)
    ∧ Records clip (rolling (withClips clip none run))
    ∧ ((rolling State.reset).recording = none ∧ (rolling State.reset).intake.state ≠ .running)
    ∧ ((rolling (tableFull run)).recording = none ∧ (rolling (tableFull run)).intake.state = .running
      ∧ none ∉ (rolling (tableFull run)).clips.table) := by decide

theorem witness_CutEnds :
    (∀ s ∈ [run, withClips clip (some 4) run, withClips clip (some 7) run],
      Calm (cutting s) ∧ FliesAs .cut (unitFlight 10 .cut) (cutting s)
        ∧ firstRequest 0 (cutting s).lines.requests = some .cut)
    ∧ (cutting run).recording = none
    ∧ (Records clip (cutting (withClips clip (some 4) run))
      ∧ Records clip (cutting (withClips clip (some 7) run)))
    ∧ (withClips clip (some 4) run).clips.recentStart.all (fun x => isBelow x clip.first) = true
    ∧ isBelow 7 clip.first = false ∧ clip.reach ≠ ⟨7 + 1, 7 + 1⟩
    ∧ (let s := cutting (withQueue [entryOf .coded 100] (withClips clip (some 6) run))
      Calm s ∧ FliesAs .cut (unitFlight 10 .cut) s ∧ firstRequest 0 s.lines.requests = some .cut
        ∧ Records clip s ∧ s.clips.recentStart = some 6
        ∧ isBelow 6 clip.first = false ∧ clip.reach = ⟨6 + 1, 6 + 1⟩ ∧ clip.queued = ⟨false, false⟩
        ∧ (s.entries .master).getLast? = some (entryOf .coded 100)
        ∧ (entryOf .coded 100).clip = some clip.number) :=
  ⟨by decide, by decide, by decide, by decide, by decide, by decide, by decide⟩

theorem witness_ToggleActs :
    (∀ s ∈ [run, State.reset, withClips clip (some 5) run],
      Calm (withRequest .toggle s) ∧ firstRequest 0 (withRequest .toggle s).lines.requests = some .toggle)
    ∧ MayOpen 0 (withRequest .toggle run)
    ∧ ((withRequest .toggle State.reset).recording = none
      ∧ (withRequest .toggle State.reset).intake.state ≠ .running)
    ∧ (Records clip (withRequest .toggle (withClips clip (some 5) run)) ∧ isBelow 5 clip.first = false)
    ∧ (let s := withRequest .toggle (withClips clip (some 4) run)
      Calm s ∧ firstRequest 0 s.lines.requests = some .toggle ∧ Records clip s
        ∧ s.clips.recentStart.all (fun x => isBelow x clip.first) = true) :=
  ⟨by decide, ⟨by decide, by decide, by decide, by decide, by decide, each_stream (by decide) (by decide)⟩,
    by decide, by decide, by decide⟩

/-- A MARK of a kind in its owner's hand, and a line's GOOD mark waiting. -/
def marking (kind : Nat) (s : State) : State :=
  withRequest (.mark .good) (withBlock .walking (blockAt 11 2 (BitVec.ofNat 8 kind :: List.replicate 31 0) .handed) s)

/-- The block of that MARK. -/
def markBlock (kind : Nat) : Block := blockAt 11 2 (BitVec.ofNat 8 kind :: List.replicate 31 0) .handed

/-- A clip with 32 marks. -/
def markedClip : Clip := { clip with marks := List.replicate 32 ⟨5, .good, .directive⟩ }

/-- Pre-roll is on, and frame 8 has started last. -/
def heldMarks : State :=
  { prerolling with clips := { prerolling.clips with
    recentStart := some 8, held := List.replicate 8 ⟨8, .flag, .directive⟩ } }

theorem witness_MarkTaken :
    (∀ s ∈ [withClips clip (some 4) run, withClips markedClip (some 4) run, heldMarks, run],
      Calm (marking 1 s) ∧ InHand .mark (markBlock 1) (marking 1 s)
        ∧ firstRequest 0 (marking 1 s).lines.requests = some (.mark .good))
    ∧ ((markBlock 1).u8 32 = 1 ∧ (markBlock 2).u8 32 = 2)
    ∧ (Records clip (marking 1 (withClips clip (some 4) run)) ∧ clip.marks.length < 32)
    ∧ (Records markedClip (marking 1 (withClips markedClip (some 4) run)) ∧ 32 ≤ markedClip.marks.length)
    ∧ ((marking 1 heldMarks).recording = none ∧ (marking 1 heldMarks).clips.recentStart = some 8
      ∧ (marking 1 heldMarks).queue.depth ≠ 0 ∧ (marking 1 heldMarks).intake.geometry ≠ none
      ∧ isBelow 8 (marking 1 heldMarks).queue.agingLine = false)
    ∧ ((marking 1 run).recording = none ∧ (marking 1 run).queue.depth = 0)
    ∧ (Calm (marking 0 run) ∧ InHand .mark (markBlock 0) (marking 0 run) ∧ (markBlock 0).u8 32 = 0
      ∧ (markBlock 3).u8 32 = 3) := by decide

/-- `run` with the master writer in a courtesy gap. -/
def inGap : State :=
  { run with writers := { run.writers with
    streams := ⟨{ Writer.reset with gapTimer := some 20, state := .gap }, Writer.reset⟩ } }

theorem witness_TimersEnd :
    run.clips.blinkTimer = none
      ∧ { run.clips with blinkTimer := some 100 }.blinkTimer = some 100
      ∧ (run.writer .master).gapTimer = none ∧ Calm inGap ∧ (inGap.writer .master).gapTimer ≠ none := by decide

/-- The master writer's burst of 100 bytes of an entry of `size` bytes is on the port. -/
def writing (kind : EntryKind) (size position : Nat) : State :=
  withBurst .master writerBytes
    (withWriter [] (some (current position)) 0 (withQueue [entryOf kind size] (withClips clip (some 6) run)))

theorem witness_WriterBurstAdvances :
    (∀ size ∈ [100, 101],
      let s := writing .coded size 0
      Calm s ∧ OnPort (writerRequester .master) .entry writerBytes s
        ∧ (s.entries .master).head? = some (entryOf .coded size)
        ∧ (s.writer .master).current = some (current 0)
        ∧ 0 + 100 + 32 ≤ (current 0).segment.length ∧ (entryOf .coded size).kind ≠ .trailer)
    ∧ 100 ≤ ((writing .coded 100 0).writer .master).written + writerBytes.length
    ∧ decide (6442450944 * (writing .coded 100 0).queue.highMark / 100
      ≤ bytesInUse ((writing .coded 100 0).entries .master).tail) = false := by decide

theorem witness_WriterBurstCloses :
    (let s := writing .coded 101 65436
    OnPort (writerRequester .master) .entry writerBytes s
      ∧ (s.entries .master).head? = some (entryOf .coded 101)
      ∧ (s.writer .master).current = some (current 65436) ∧ (s.writer .master).relinquish = none
      ∧ s.walker.state ≠ .resetting ∧ (current 65436).segment.length ≤ 65436 + writerBytes.length)
    ∧ (let s := writing .trailer 100 0
      OnPort (writerRequester .master) .entry writerBytes s
        ∧ (s.entries .master).head? = some (entryOf .trailer 100)
        ∧ (s.writer .master).current = some (current 0) ∧ (s.writer .master).relinquish = none
        ∧ s.walker.state ≠ .resetting ∧ (entryOf .trailer 100).size ≤ 0 + writerBytes.length
        ∧ (entryOf .trailer 100).clip = some clip.number ∧ clip ∈ s.clipList
        ∧ (∀ d ∈ s.clipList, d.number = clip.number → d = clip)
        ∧ clip.written.get (otherStream .master) = false)
    ∧ { clip with written := ⟨false, true⟩ }.written.get (otherStream .master) = true
    ∧ (let s := writing .coded 100 65405
      OnPort (writerRequester .master) .entry writerBytes s
        ∧ (s.entries .master).head? = some (entryOf .coded 100)
        ∧ (s.writer .master).current = some (current 65405) ∧ (entryOf .coded 100).kind ≠ .trailer
        ∧ (entryOf .coded 100).size ≤ (s.writer .master).written + writerBytes.length
        ∧ (current 65405).segment.length < (current 65405).position + writerBytes.length + 32) := by decide

/-- A RELINQUISH of the master stream in flight. -/
def relinquishFlight : Block := blockAt 6 2 (List.replicate 32 0) (.inFlight (.relinquish .master))

/-- `s` with a RELINQUISH of the master stream whose close is still to come. -/
def withClose (early : Bool) (s : State) : State :=
  withBlock .waiting relinquishFlight
    { s with writers := { s.writers with streams := ⟨{ s.writer .master with
      relinquish := some ⟨some (if early then .afterBurst else .afterEntry), 0⟩ }, s.writer .proxy⟩ } }

theorem witness_WriterBurstCloses_relinquish :
    ∀ early ∈ [true, false], ∀ size ∈ [100, 101],
      let s := withClose early (writing .coded size 0)
      OnPort (writerRequester .master) .entry writerBytes s
        ∧ (s.entries .master).head? = some (entryOf .coded size) ∧ (s.writer .master).current = some (current 0)
        ∧ FliesAs (.relinquish .master) relinquishFlight s ∧ s.walker.state = .waiting
        ∧ (s.writer .master).relinquish = some ⟨some (if early then .afterBurst else .afterEntry), 0⟩
        ∧ (s.writer (otherStream .master)).relinquish = none
        ∧ ((entryOf .coded size).size ≤ (s.writer .master).written + writerBytes.length ↔ size = 100)
        ∧ ¬ (current 0).segment.length ≤ (current 0).position + writerBytes.length := by decide

/-- A burst of the Page Writer that returns the segment. -/
def returning (kind : BurstKind) : State :=
  let s := withBurst .page ⟨kind, 0x4004C, 15, List.replicate 15 0⟩ run
  { s with
    writers := { s.writers with grants := [⟨0x40000, .master, 1, 0⟩] }
    page := { s.page with results := [result false] } }

theorem witness_ResultsReturn :
    ∀ kind ∈ [BurstKind.resultSlot, .resultCount],
      let s := returning kind
      Calm s ∧ s.arbiter.port = some .page
        ∧ s.arbiter.bursts.page = some ⟨kind, 0x4004C, 15, List.replicate 15 0⟩
        ∧ s.page.results = [result false] ∧ (result false).counted = false := by decide

/-- `rewriting` with an attempt count. -/
def retried (n : Nat) : State :=
  { rewriting with arbiter := { rewriting.arbiter with attempts := ⟨0, n, 0, 0⟩ } }

theorem witness_RetryWaitsOrFails :
    (∀ n ∈ [254, 255],
      Calm (retried n) ∧ (retried n).arbiter.port = some .page
        ∧ (retried n).arbiter.bursts.get .page = some ⟨.rewrite, 0x50000, 1, [7]⟩
        ∧ (retried n).arbiter.resetBurst = false)
    ∧ (retried 254).arbiter.attempts.get .page + 1 < 64 * (retried 254).writers.retry
    ∧ (retried 255).writers.retry ≠ 0
    ∧ 64 * (retried 255).writers.retry ≤ (retried 255).arbiter.attempts.get .page + 1 := by decide

/-- The walker's burst on the port, with its block at a stage. -/
def walkerBurst (burst : Burst) (b : Block) (s : State) : State :=
  withBurst .walker burst (withBlock .walking b s)

theorem witness_BurstErrorActs :
    (∀ p ∈ [((⟨.header, 0x40200, 32, []⟩ : Burst), blockAt 1 2 [] .header),
        (⟨.body, 0x40220, 32, []⟩, blockAt 1 2 [] .body),
        (⟨.table, 0x60000, 20, []⟩, loadBlock 0 (.reading [])),
        (⟨.refusedSlot, 0x4024C, 15, []⟩, blockAt 5 3 [] (.slots 1 [(0, .refusedForm)])),
        (⟨.walkerCount, 0x40222, 1, []⟩, blockAt 5 3 [] (.count 0)),
        (⟨.outcome, 0x40210, 7, []⟩, blockAt 1 2 [] (.outcome 1 0 9))],
      Calm (walkerBurst p.1 p.2 run) ∧ OnPort .walker p.1.kind p.1 (walkerBurst p.1 p.2 run)
        ∧ (walkerBurst p.1 p.2 run).walker.pendingEntry = none
        ∧ (walkerBurst p.1 p.2 run).walker.block = some p.2)
    ∧ (∀ stage ∈ [Stage.header, .body, .reading [], .slots 1 [(0, .refusedForm)], .count 0], match stage with | .outcome _ _ _ => False | _ => True)
    ∧ (let s := writing .coded 100 0
      s.isPending .fault = false ∧ OnPort (writerRequester .master) .entry writerBytes s
        ∧ (s.entries .master).head? = some (entryOf .coded 100)
        ∧ (s.writer .master).current = some (current 0) ∧ (s.writer .master).relinquish = none
        ∧ s.walker.state ≠ .resetting ∧ (current 0).entryStart = some 0)
    ∧ { current 0 with entryStart := none }.entryStart = none := by
  refine ⟨by decide, ?_, by decide, rfl⟩
  intro stage h
  simp only [List.mem_cons, List.mem_nil_iff, or_false] at h
  rcases h with rfl | rfl | rfl | rfl | rfl <;> trivial

theorem witness_BurstErrorActs_page :
    (Calm rewriting ∧ rewriting.arbiter.port = some .page
      ∧ rewriting.arbiter.bursts.page = some ⟨.rewrite, 0x50000, 1, [7]⟩)
    ∧ ∀ kind ∈ [BurstKind.resultSlot, .resultCount],
      let s := returning kind
      Calm s ∧ s.arbiter.port = some .page
        ∧ s.arbiter.bursts.page = some ⟨kind, 0x4004C, 15, List.replicate 15 0⟩
        ∧ s.page.results = [result false] ∧ (result false).counted = false := by decide

/-- `s` with every attempt count one below the limit. -/
def nearLimit (s : State) : State := { s with arbiter := { s.arbiter with attempts := ⟨255, 255, 255, 255⟩ } }

theorem witness_BurstErrorActs_limit :
    (∀ limit ∈ [true, false],
      Fails limit .walker (nearLimit (walkerBurst ⟨.header, 0x40200, 32, []⟩ (blockAt 1 2 [] .header) run))
        ∧ Fails limit (writerRequester .master) (nearLimit (writing .coded 100 0))
        ∧ Fails limit .page (nearLimit rewriting))
    ∧ Calm (nearLimit (walkerBurst ⟨.header, 0x40200, 32, []⟩ (blockAt 1 2 [] .header) run))
    ∧ Calm (nearLimit rewriting)
    ∧ (let s := nearLimit (withClose false (writing .coded 100 0))
      s.isPending .fault = false ∧ OnPort (writerRequester .master) .entry writerBytes s
        ∧ (s.entries .master).head? = some (entryOf .coded 100)
        ∧ (s.writer .master).current = some (current 0) ∧ s.walker.state ≠ .resetting
        ∧ ((s.writer .master).relinquish.bind Relinquish.close).isSome = true) := by decide

/-- `run` with line 0 replaced. -/
def withLine (l : Line) : State :=
  { run with lines := { run.lines with lines := l :: List.replicate 5 (Line.reset none) } }

/-- A line with a role, a filter time and a running timer or none; its raw and filtered levels are HIGH. -/
def lineOf (role : Role) (filter : FilterTime) (timer : Option Level) : Line :=
  ⟨role, .falling, .low, .high, filter, none, .high, timer⟩

theorem witness_RawLevelFiltered :
    (∀ l ∈ [lineOf .rollToggle .four none, { lineOf .rollToggle .four (some .low) with drive := some .low }],
      Calm (withLine l) ∧ (withLine l).lines.lines[(0 : LineNo).val]? = some l ∧ l.filter ≠ .zero)
    ∧ (let l := lineOf .rollToggle .four none
      (some Level.high).getD l.idle = l.drive.getD l.idle ∧ (some Level.low).getD l.idle ≠ l.drive.getD l.idle
        ∧ (some Level.low).getD l.idle ≠ l.filtered ∧ l.timer = none)
    ∧ (let l := { lineOf .rollToggle .four (some .low) with drive := some .low }
      (none : Option Level).getD l.idle ≠ l.drive.getD l.idle ∧ (none : Option Level).getD l.idle = l.filtered) := by
  decide

theorem witness_EdgesAreHanded :
    ∀ l ∈ [lineOf .rollHold .zero none, lineOf .markGood .four (some .low)],
      Calm (withLine l) ∧ (withLine l).lines.lines[(0 : LineNo).val]? = some l ∧ l.filtered ≠ .low
        ∧ l.role ≠ .syncRef ∧ (l.filter = .zero ∧ l.drive.getD l.idle ≠ .low ∨ l.timer = some .low) := by decide

/-- A SYNC_REF line with a reference frame start and a missing-edge count. -/
def syncing (missing : Nat) : State :=
  let s := withLine (lineOf .syncRef .zero none)
  { s with lines := { s.lines with sync := { s.lines.sync with reference := some 1000000, missing := missing } } }

theorem witness_SyncCaptured :
    (∀ missing ∈ [6, 7],
      let l := lineOf .syncRef .zero none
      let s := syncing missing
      Calm s ∧ s.lines.lines[(0 : LineNo).val]? = some l ∧ l.filtered ≠ .low ∧ l.role = .syncRef
        ∧ (l.edge = .both ∨ (l.edge = .rising ↔ Level.low = .high)) ∧ l.filter = .zero
        ∧ l.drive.getD l.idle ≠ .low ∧ s.intake.geometry = some geo ∧ s.intake.state = .running
        ∧ s.lines.sync.reference = some 1000000 ∧ 1000000 ≤ 1300000 ∧ l ∈ s.lines.lines
        ∧ s.lines.sync.missing ≤ 7)
    ∧ (withLine (lineOf .syncRef .zero none)).lines.sync.reference = none := by decide

theorem witness_EntryTaken :
    (Calm run ∧ run.walker.state = .idle)
    ∧ ((BitVec.toNat (1 : BitVec 32)) % 2 = 1 ∧ (BitVec.toNat (2 : BitVec 32)) % 2 = 0)
    ∧ (let s := withBlock .walking (blockAt 1 2 [] .header) run
      Calm s ∧ s.walker.state ≠ .idle ∧ s.walker.pendingEntry = none)
    ∧ (let s := withBlock .walking (blockAt 1 2 [] .header) run
      let u : State := { s with walker := { s.walker with pendingEntry := some 32 } }
      Calm u ∧ u.walker.state ≠ .idle ∧ u.walker.pendingEntry ≠ none)
    ∧ { run.walker with state := .resetting }.state = .resetting ∧ (2 : BitVec 32) ≠ 0 := by decide

/-- A header of 32 bytes: kind, flags and length in units. -/
def headerBytes (kind units : Nat) : List Byte := (blockAt kind units [] .header).header

theorem witness_HeaderDecides :
    (∀ state ∈ [WalkerState.walking, .stopping],
      let b : Block := ⟨0x40200, [], [], .header, false⟩
      let u : Burst := ⟨.header, 0x40200, 32, []⟩
      let s := withBurst .walker u (withBlock state b run)
      Calm s ∧ OnPort .walker .header u s ∧ s.walker.block = some b ∧ b.body = [])
    ∧ (∀ p ∈ [(0, 1), (1, 3), (1, 2), (7, 1), (9, 1), (10, 1)], (headerBytes p.1 p.2).length = 32)
    ∧ ((headerBytes 0 1).getD 0 0).toNat = 0 ∧ ((headerBytes 14 1).getD 0 0).toNat = 14
    ∧ (((headerBytes 1 3).getD 0 0).toNat = 1 ∧ ((headerBytes 1 3).getD 2 0).toNat ∉ [2])
    ∧ (((headerBytes 1 2).getD 0 0).toNat = 1 ∧ ((headerBytes 1 2).getD 2 0).toNat ∈ [2])
    ∧ (∀ code ∈ [7, 8, 9, 10], ((headerBytes code 1).getD 0 0).toNat = code
      ∧ ((headerBytes code 1).getD 2 0).toNat = 1) := by decide

theorem witness_BodyArrives :
    (∀ units ∈ [2, 3],
      let b := blockAt (if units = 2 then 1 else 2) units [] .body
      let u : Burst := ⟨.body, 0x40220, 32, []⟩
      let s := walkerBurst u b run
      Calm s ∧ OnPort .walker .body u s ∧ s.walker.block = some b
        ∧ (List.replicate 32 (0 : Byte)).length = u.length ∧ b.kind ≠ none ∧ b.kind ≠ some .roll
        ∧ b.kind ≠ some .cut)
    ∧ ((blockAt 2 3 [] .body).body ++ List.replicate 32 0).length < ((blockAt 2 3 [] .body).units - 1) * 32
    ∧ ((blockAt 1 2 [] .body).units - 1) * 32 ≤ ((blockAt 1 2 [] .body).body ++ List.replicate 32 0).length := by
  decide

/-- A block whose outcome is being written, with flags and a next address. -/
def finished (flags next : Nat) : Block :=
  ⟨0x40200, [7, BitVec.ofNat 8 flags, 1, 0, 0, 0, 0, 0] ++ leBytes 8 next ++ List.replicate 16 0, [],
    .outcome 1 0 9, false⟩

/-- The outcome of that block is on the port. -/
def finishing (state : WalkerState) (flags next count : Nat) : State :=
  let s := withBurst .walker ⟨.outcome, 0x40210, 7, []⟩ (withBlock state (finished flags next) run)
  { s with walker := { s.walker with count := count } }

theorem witness_OutcomeContinues :
    (∀ p ∈ [(WalkerState.walking, 2, 0x40400, 1), (.stopping, 0, 0x40400, 1), (.walking, 1, 0x40400, 1),
        (.walking, 0, 0x40400, 1024), (.walking, 0, 0, 1023), (.walking, 0, 0x40400, 1023)],
      let s := finishing p.1 p.2.1 p.2.2.1 p.2.2.2
      let b := finished p.2.1 p.2.2.1
      Calm s ∧ OnPort .walker .outcome ⟨.outcome, 0x40210, 7, []⟩ s ∧ s.walker.block = some b
        ∧ b.stage = .outcome 1 0 9 ∧ s.walker.pendingEntry = none ∧ s.walker.haltRequest = false
        ∧ b.nextAddress = p.2.2.1)
    ∧ ((finished 2 0x40400).flag 1 = true ∧ (finished 1 0x40400).flag 0 = true
      ∧ (finished 0 0).flag 0 = false ∧ (finished 0 0).flag 1 = false) := by decide

theorem witness_HaltRequested :
    (withBlock .walking (finished 0 0) run).walker.state = .walking
      ∧ (withBlock .waiting (unitFlight 9 .roll) run).walker.state = .waiting
      ∧ run.walker.state ≠ .walking ∧ run.walker.state ≠ .waiting := by decide

/-- The halt request is set. -/
def haltAsked (s : State) : State := { s with walker := { s.walker with haltRequest := true } }

theorem witness_HaltRequested_kept :
    (∃ t, exec (.notice 0) (haltAsked (withBlock .walking (finished 0 0) run)) = .next t
      ∧ t.walker.state = .walking)
    ∧ (haltAsked (withBlock .walking (finished 0 0) run)).walker.haltRequest = true
    ∧ (haltAsked (withBlock .walking (finished 0 0) run)).arbiter.port ≠ some .walker
    ∧ (∀ left ∈ [1, 2],
      let b : Block := { finished 0 0 with stage := .inFlight (.frames left) }
      let s := haltAsked (withBlock .waiting b run)
      Calm s ∧ FliesAs (.frames left) b s ∧ s.walker.state = .waiting ∧ s.intake.state = .running
        ∧ s.walker.haltRequest = true) :=
  ⟨⟨_, rfl, by decide⟩, by decide, by decide, by decide⟩

theorem witness_HaltRequested_halts :
    (∀ p ∈ [(0, 0x40400, 7), (1, 0, 1), (8, 0x40400, 6), (8, 0x40400, 7)],
      let u : Burst := ⟨.outcome, 0x40210, 7, []⟩
      let b : Block := { finished p.1 p.2.1 with stage := .outcome p.2.2 0 5 }
      let s := haltAsked (withBurst .walker u (withBlock .walking b run))
      OnPort .walker .outcome u s ∧ s.walker.state = .walking ∧ s.walker.haltRequest = true
        ∧ s.walker.block = some b ∧ b.stage = .outcome p.2.2 0 5)
    ∧ (finished 1 0).flag 0 = true ∧ (finished 8 0).flag 0 = false ∧ (finished 8 0).flag 3 = true
    ∧ (finished 0 0).flag 3 = false := by decide

/-- A HALTED walker with a continuation and a pending entry or none. -/
def halted (c : Continuation) (entry : Option Nat) (count : Nat) : State :=
  { run with walker := { run.walker with
    state := .halted, continuation := some c, pendingEntry := entry, count := count } }

theorem witness_ResumeActs :
    run.walker.state ≠ .halted
    ∧ (let s := halted .chainEnd none 1
      Calm s ∧ s.walker.state = .halted ∧ s.walker.continuation = some .chainEnd ∧ s.walker.pendingEntry = none)
    ∧ (let s := halted (.next 0x20) none 1023
      Calm s ∧ s.walker.state = .halted ∧ s.walker.continuation = some (.next 0x20) ∧ s.walker.count < 1024
        ∧ 0x20 < 2 ^ 48 ∧ 0x20 ≠ 0 ∧ 0x20 % 32 = 0)
    ∧ (let s := halted .chainEnd (some 0x20) 1
      Calm s ∧ s.walker.state = .halted ∧ s.walker.continuation = some .chainEnd
        ∧ s.walker.pendingEntry = some 0x20) := by decide

theorem witness_ResumeActs_faults :
    ∀ p ∈ [(1024, 0x20), (1023, 0), (1023, 0x21), (1023, 2 ^ 48)], ∀ entry ∈ [none, some 0x40],
      let h := halted (.next p.2) entry p.1
      let s := { h with walker := { h.walker with lastBlock := some (0x40200, 9) } }
      Calm s ∧ s.walker.state = .halted ∧ s.walker.continuation = some (.next p.2)
        ∧ s.walker.lastBlock = some (0x40200, 9) ∧ s.walker.pendingEntry = entry
        ∧ (1024 ≤ s.walker.count ∨ s.walker.count < 1024 ∧ (2 ^ 48 ≤ p.2 ∨ p.2 = 0 ∨ p.2 % 32 ≠ 0)) := by decide

/-- `s` with a RELINQUISH of the master stream in hand. -/
def withRelinquish (r : Relinquish) (segments : List Segment) (s : State) : State :=
  { s with writers := { s.writers with streams :=
    ⟨{ Writer.reset with segments := segments, relinquish := some r }, Writer.reset⟩ } }

theorem witness_StopRequested :
    run.walker.state = .idle
    ∧ (withBlock .walking (finished 0 0) run).walker.state = .walking
    ∧ (Calm (halted .chainEnd none 1) ∧ (halted .chainEnd none 1).walker.state = .halted)
    ∧ (let s := withBlock .waiting (unitFlight 9 .roll) run
      Calm s ∧ s.walker.state = .waiting ∧ FliesAs .roll (unitFlight 9 .roll) s)
    ∧ (let s := withBlock .waiting (unitFlight 8 .stopIntake)
        { run with intake := { run.intake with state := .stopping } }
      Calm s ∧ s.walker.state = .waiting ∧ FliesAs .stopIntake (unitFlight 8 .stopIntake) s
        ∧ s.intake.state = .stopping)
    ∧ (let b := blockAt 6 2 (List.replicate 32 0) (.inFlight (.relinquish .master))
      let s := withRelinquish ⟨none, 2⟩ [] (withBlock .waiting b run)
      s.walker.state = .waiting ∧ FliesAs (.relinquish .master) b s
        ∧ (s.writer .master).relinquish = some ⟨none, 2⟩
        ∧ (s.writer (otherStream .master)).relinquish = none) := by decide

/-- A SETUP: width, height, factor, code, filter and page address. -/
def setupBlock (w h f code filter page : Nat) : Block :=
  blockAt 1 2 (leBytes 2 w ++ leBytes 2 h ++ leBytes 1 f ++ leBytes 1 code ++ leBytes 1 filter ++ [0]
    ++ leBytes 8 page ++ List.replicate 16 0) .handed

/-- The sizes of a SETUP pass its checks 1 to 5. -/
abbrev sized (b : Block) : Prop :=
  (b.field 32 2 % 32 = 0 ∧ 1280 ≤ b.field 32 2 ∧ b.field 32 2 ≤ 4096)
    ∧ (b.field 34 2 % 8 = 0 ∧ 720 ≤ b.field 34 2 ∧ b.field 34 2 ≤ 2176)
    ∧ (2 ≤ b.u8 36 ∧ b.u8 36 ≤ 4)
    ∧ (b.field 32 2 % b.u8 36 = 0 ∧ b.field 32 2 / b.u8 36 % 16 = 0)
    ∧ (b.field 34 2 % b.u8 36 = 0 ∧ b.field 34 2 / b.u8 36 % 4 = 0)

theorem witness_SetupDecides :
    (∀ b ∈ [setupBlock 4096 2176 4 11 1 0x100, setupBlock 4097 2176 4 11 0 0x100,
        setupBlock 1280 720 4 12 0 0x100, setupBlock 1280 720 4 0 2 0x100, setupBlock 1280 720 4 0 1 0],
      Calm (withBlock .walking b State.reset) ∧ InHand .setup b (withBlock .walking b State.reset)
        ∧ (withBlock .walking b State.reset).intake.state = .stopped)
    ∧ (let b := setupBlock 4096 2176 4 11 1 0x100
      sized b ∧ b.u8 37 = 11 ∧ b.u8 38 ≤ 1 ∧ b.field 40 8 = 0x100
        ∧ (withBlock .walking b run).intake.state ≠ .stopped ∧ InHand .setup b (withBlock .walking b run))
    ∧ ¬ sized (setupBlock 4097 2176 4 11 0 0x100)
    ∧ (sized (setupBlock 1280 720 4 12 0 0x100) ∧ 12 ≤ (setupBlock 1280 720 4 12 0 0x100).u8 37)
    ∧ (sized (setupBlock 1280 720 4 0 2 0x100) ∧ 2 ≤ (setupBlock 1280 720 4 0 2 0x100).u8 38)
    ∧ (sized (setupBlock 1280 720 4 0 1 0) ∧ (setupBlock 1280 720 4 0 1 0).field 40 8 = 0) :=
  ⟨by decide, by decide, by decide, by decide, by decide, by decide⟩

theorem witness_SetupDecides_marks :
    MarksSound (withBlock .walking (setupBlock 4096 2176 4 11 1 0x100) State.reset) :=
  each_stream (by decide) (by decide)

/-- A TUNE whose 64 bytes of body are 1. -/
def tuneBlock : Block := blockAt 2 3 (List.replicate 64 1) .handed

theorem witness_TuneTaken :
    Calm (withBlock .walking tuneBlock run) ∧ InHand .tune tuneBlock (withBlock .walking tuneBlock run)
      ∧ (withBlock .walking tuneBlock run).intake.geometry = some geo := by decide

/-- A held master entry of frame `n` + 9. -/
def heldEntry (n : Nat) : Entry := { entryOf .coded 100 with frame := BitVec.ofNat 32 (n + 9), clip := none }

/-- R190 and R153: the tolerance reaches its owner whole, 300 not cut to one byte, and a value above 2048 is
clamped to 2048 and counted as one more adjusted field. -/
theorem test_tolerance_whole :
    let fields := fun w => (blockAt 2 3 (List.replicate 30 1 ++ leBytes 2 w ++ List.replicate 32 1) .handed).tuneFields
    (tuneTolerance (fields 300) run).lines.sync.tolerance = 300
      ∧ (tuneTolerance (fields 2049) run).lines.sync.tolerance = 2048
      ∧ tuneAdjusted (fields 2048) = tuneAdjusted (fields 300)
      ∧ tuneAdjusted (fields 2049) = tuneAdjusted (fields 300) + 1 := by decide

/-- Pre-roll of two seconds with 26 held frames from 9 on, one more than the one second of `tuneBlock` allows. -/
def lowering : State :=
  withBlock .walking tuneBlock (withQueue ((List.range 26).map heldEntry)
    { run with queue := { run.queue with depth := 2, limit := 50 } })

theorem witness_TuneTaken_depth :
    (Calm lowering ∧ InHand .tune tuneBlock lowering ∧ lowering.intake.geometry = some geo
      ∧ min (tuneBlock.u8 48) 30 = 1 ∧ 1 < lowering.queue.depth
      ∧ (1 * (rateOf geo.code).num + (rateOf geo.code).den - 1) / (rateOf geo.code).den
        < (lowering.entries .master).length
      ∧ (lowering.entries .master).length < 2 ^ 31 ∧ lowering.entries .proxy = [])
    ∧ (∀ i < (lowering.entries .master).length, ∀ e ∈ (lowering.entries .master)[i]?,
      e.clip = none ∧ e.count = 1 ∧ e.frame = 9 + BitVec.ofNat 32 i)
    ∧ (let s := withBlock .walking tuneBlock run
      heldFrames (s.entries .master) ≤ 25 ∧ s.queue.depth = 0 ∧ s.intake.geometry ≠ none) :=
  ⟨by decide, by decide, by decide⟩

/-- A LINES whose first line takes a role, the others NONE. -/
def linesBlock (role role' : Nat) : Block :=
  blockAt 3 2 ([BitVec.ofNat 8 role, 2, 1, 1, 4] ++ [BitVec.ofNat 8 role', 0, 0, 0, 0] ++ List.replicate 22 0)
    .handed

theorem witness_LinesDecide :
    (∀ b ∈ [linesBlock 5 0, linesBlock 6 0, linesBlock 5 5],
      Calm (withBlock .walking b run) ∧ InHand .lines b (withBlock .walking b run)
        ∧ (withBlock .walking b run).lines.lines.length = 6)
    ∧ (∀ b ∈ [linesBlock 5 0, linesBlock 5 5], ∀ m ∈ List.range 6,
      b.u8 (32 + 5 * m) ≤ 5 ∧ b.u8 (32 + 5 * m + 1) ≤ 2 ∧ b.u8 (32 + 5 * m + 2) ≤ 1
        ∧ b.u8 (32 + 5 * m + 3) ≤ 1 ∧ b.u8 (32 + 5 * m + 4) ≤ 4)
    ∧ ¬ (linesBlock 6 0).u8 32 ≤ 5
    ∧ ((List.range 6).filter fun m => (linesBlock 5 0).u8 (32 + 5 * m) == 5).length ≤ 1
    ∧ 2 ≤ ((List.range 6).filter fun m => (linesBlock 5 5).u8 (32 + 5 * m) == 5).length := by decide

/-- Both tables are READY. -/
def ready : State :=
  { run with
    master := { run.master with tableState := .ready }
    proxy := { run.proxy with curveState := .ready } }

theorem witness_TableLoaded :
    (∀ table ∈ [0, 1], ∀ s ∈ [run, ready], ∀ state ∈ [WalkerState.walking, .stopping],
      let b := loadBlock table .handed
      Calm (withBlock state b s) ∧ InHand .loadTable b (withBlock state b s) ∧ b.loadFields.source < 2 ^ 48
        ∧ (b.loadFields.table = 0 ∧ b.loadFields.start + b.loadFields.count ≤ 64
            ∧ 1 ≤ b.loadFields.count
          ∨ b.loadFields.table = 1 ∧ b.loadFields.start = 0 ∧ b.loadFields.count = 33))
    ∧ (loadBlock 2 .handed).loadFields.table = 2
    ∧ (∀ p ∈ [(0, [], 20), (1, [], 66), (1, List.replicate 33 (0 : Byte), 32)],
      let b := loadBlock p.1 (.reading p.2.1)
      let u : Burst := ⟨.table, 0x60000, p.2.2, []⟩
      let s := walkerBurst u b ready
      Calm s ∧ OnPort .walker .table u s ∧ s.walker.block = some b ∧ b.stage = .reading p.2.1
        ∧ (List.replicate p.2.2 (5 : Byte)).length = u.length) := by decide

/-- A GRANT to the master of `n` slots, two of them given. -/
def grantBlock (stream n units : Nat) (stage : Stage) : Block :=
  blockAt 5 units ([BitVec.ofNat 8 stream, BitVec.ofNat 8 n] ++ List.replicate 30 0
    ++ slotBytes 0x200000 0x10000 ++ slotBytes 0x300000 0x800) stage

theorem witness_GrantGraded :
    (∀ b ∈ [grantBlock 2 2 4 .handed, grantBlock 0 0 4 .handed, grantBlock 0 9 4 .handed,
        grantBlock 0 1 4 .handed, grantBlock 0 2 4 .handed],
      Calm (withBlock .walking b run) ∧ InHand .grant b (withBlock .walking b run))
    ∧ ((grantBlock 2 2 4 .handed).u8 32 = 2 ∧ (grantBlock 0 0 4 .handed).u8 33 = 0
      ∧ (grantBlock 0 9 4 .handed).u8 33 = 9 ∧ (grantBlock 0 1 4 .handed).u8 33 + 2 ≠ 4
      ∧ (grantBlock 0 2 4 .handed).u8 32 = 0 ∧ (grantBlock 0 2 4 .handed).u8 33 + 2
        = (grantBlock 0 2 4 .handed).units)
    ∧ (grantBlock 0 2 4 .handed).address
        ∈ [(⟨0x40200, .master, 2, 0⟩ : GrantRecord)].map GrantRecord.block
    ∧ (grantBlock 0 2 4 .handed).address ∉ run.writers.grants.map GrantRecord.block
    ∧ (∀ left ∈ [[(0, Reason.refusedForm), (1, .refusedFull)], [(1, .refusedForm)]],
      let b := grantBlock 0 2 4 (.slots 1 left)
      let u : Burst := ⟨.refusedSlot, 0x4024C, 15, []⟩
      let s := walkerBurst u b run
      Calm s ∧ s.walker.block = some b ∧ OnPort .walker .refusedSlot u s ∧ b.stage = .slots 1 left)
    ∧ (let b := grantBlock 0 2 4 (.count 1)
      let u : Burst := ⟨.walkerCount, 0x40222, 1, []⟩
      let s := walkerBurst u b run
      Calm s ∧ s.walker.block = some b ∧ OnPort .walker .walkerCount u s ∧ b.stage = .count 1) := by decide

/-- A RELINQUISH: stream and close-current. -/
def relinquishBlock (stream close : Nat) (stage : Stage) : Block :=
  blockAt 6 2 ([BitVec.ofNat 8 stream, BitVec.ofNat 8 close] ++ List.replicate 30 0) stage

theorem witness_RelinquishTaken_waits :
    let s := withBlock .walking (relinquishBlock 0 0 .handed) (withWriter [segment] none 0 run)
    let u : State := { s with page := { s.page with results := [result false] } }
    Calm u ∧ InHand .relinquish (relinquishBlock 0 0 .handed) u ∧ (u.writer .master).segments = [segment]
      ∧ u.page.results = [result false] ∧ (result false).stream = .master ∧ (result false).counted = false
      ∧ (result false).own = false := by decide

theorem witness_RelinquishTaken :
    (∀ state ∈ [WalkerState.walking, .stopping], ∀ b ∈ [relinquishBlock 0 0 .handed, relinquishBlock 2 0 .handed],
      ∀ s ∈ [run, withWriter [segment] none 0 run],
      Calm (withBlock state b s) ∧ InHand .relinquish b (withBlock state b s)
        ∧ ∀ r ∈ (withBlock state b s).page.results, r.stream = .master → r.counted = false ∧ r.own = true)
    ∧ ((relinquishBlock 2 0 .handed).u8 32 = 2 ∧ (relinquishBlock 0 0 .handed).u8 32 = 0
      ∧ (relinquishBlock 0 0 .handed).u8 33 = 0 ∧ (relinquishBlock 0 1 .handed).u8 33 ≠ 0)
    ∧ (∀ p ∈ [(0, 0), (5, 1)],
      let b := relinquishBlock 0 1 .handed
      let s := withBlock .walking b (withWriter [segment] (some (current p.1)) p.2 run)
      Calm s ∧ InHand .relinquish b s ∧ (s.writer .master).current = some (current p.1)
        ∧ s.arbiter.port ≠ some (writerRequester .master)
        ∧ ((s.writer .master).written ≠ 0 ∧ (current p.1).position ≠ 0 ↔ p.1 = 5))
    ∧ (∀ segments ∈ [[], [segment]],
      let b := relinquishBlock 0 0 (.inFlight (.relinquish .master))
      let u : Burst := ⟨.resultCount, 0x40022, 1, [1]⟩
      let v := withBurst .page u (withRelinquish ⟨none, 0⟩ segments (withBlock .waiting b run))
      let s := { v with page := { v.page with results := [result true] } }
      FliesAs (.relinquish .master) b s ∧ s.walker.state = .waiting
        ∧ (s.writer .master).relinquish = some ⟨none, 0⟩
        ∧ (s.writer (otherStream .master)).relinquish = none ∧ s.arbiter.port = some .page
        ∧ s.arbiter.bursts.page = some u ∧ s.page.results = [result true]
        ∧ (result true).stream = .master ∧ (result true).counted = true) := by decide

/-- `s` with a block of one unit in its owner's hand. -/
def handed (kind : Nat) (s : State) : State := withBlock .walking (blockAt kind 1 [] .handed) s

/-- The pixel link is in STOPPING or STOPPED with a geometry. -/
def intakeIn (state : IntakeState) : State := { run with intake := { run.intake with state := state } }

/-- Nothing is left in the part of the pictures. -/
abbrev drained (s : State) : Prop :=
  s.intake.arrival = none ∧ (∀ x ∈ s.slots, x.state = .free) ∧ s.inputs = ⟨[], []⟩
    ∧ s.master.picture = none ∧ s.proxy.picture = none

theorem witness_IntakeStartsStops :
    (∀ s ∈ [run, State.reset, intakeIn .stopped],
      Calm (handed 7 s) ∧ InHand .startIntake (blockAt 7 1 [] .handed) (handed 7 s))
    ∧ ((handed 7 run).intake.state = .running ∧ (handed 7 State.reset).intake.geometry = none
      ∧ (handed 7 (intakeIn .stopped)).intake.geometry ≠ none)
    ∧ (∀ s ∈ [run, State.reset, withClips clip none run, busy],
      Calm (handed 8 s) ∧ InHand .stopIntake (blockAt 8 1 [] .handed) (handed 8 s))
    ∧ ((handed 8 State.reset).intake.state = .stopped ∧ (handed 8 (withClips clip none run)).recording ≠ none
      ∧ (handed 8 run).recording = none ∧ drained (handed 8 run) ∧ (handed 8 busy).recording = none
      ∧ ¬ drained (handed 8 busy) ∧ (handed 8 busy).walker.state ≠ .stopping)
    ∧ (let s := withBlock .stopping (blockAt 8 1 [] .handed) busy
      Calm s ∧ InHand .stopIntake (blockAt 8 1 [] .handed) s ∧ s.walker.state = .stopping ∧ ¬ drained s)
    ∧ (let s := withBlock .waiting (unitFlight 8 .stopIntake) (intakeIn .stopping)
      Calm s ∧ FliesAs .stopIntake (unitFlight 8 .stopIntake) s ∧ s.intake.state = .stopping ∧ drained s) :=
  ⟨by decide, by decide, by decide, by decide, by decide, by decide⟩

theorem witness_IntakeStartsStops_marks : MarksSound (handed 7 (intakeIn .stopped)) :=
  each_stream (by decide) (by decide)

/-- A SET_TIMECODE: hours, minutes, seconds, frames and the drop-frame flag. -/
def timecodeBlock (fields : List Byte) : Block := blockAt 12 2 (fields ++ List.replicate 27 0) .handed

/-- `run` at rate code 7, 60000/1001. -/
def runDrop : State := { run with intake := { run.intake with geometry := some { geo with code := 7 } } }

theorem witness_TimecodeSet :
    (∀ s ∈ [State.reset, runDrop], ∀ fields ∈ [[24, 0, 0, 0, 0], [12, 34, 0, 1, 1], [23, 59, 59, 59, 1]],
      let b := timecodeBlock fields
      Calm (withBlock .walking b s) ∧ InHand .setTimecode b (withBlock .walking b s))
    ∧ State.reset.intake.geometry = none ∧ (rateOf 7).base = 60 ∧ (rateOf 7).skip = 4
    ∧ (timecodeBlock [24, 0, 0, 0, 0]).u8 32 = 24
    ∧ (let b := timecodeBlock [12, 34, 0, 1, 1]
      b.u8 32 = 12 ∧ b.u8 33 % 10 = 4 ∧ b.u8 34 = 0 ∧ b.u8 35 = 1 ∧ b.u8 36 = 1)
    ∧ (let b := timecodeBlock [23, 59, 59, 59, 1]
      b.u8 32 = 23 ∧ b.u8 33 = 59 ∧ b.u8 34 = 59 ∧ b.u8 35 = 59 ∧ b.u8 36 = 1) := by decide

/-- A WAIT: condition and count of frames. -/
def waitBlock (condition n : Nat) (stage : Stage) : Block :=
  blockAt 13 2 (leBytes 1 condition ++ [0] ++ leBytes 2 n ++ List.replicate 28 0) stage

theorem witness_WaitTaken :
    (∀ state ∈ [WalkerState.walking, .stopping], ∀ s ∈ [run, withClips clip none run],
      ∀ b ∈ [waitBlock 2 0 .handed, waitBlock 0 0 .handed, waitBlock 0 1 .handed, waitBlock 1 0 .handed],
        Calm (withBlock state b s) ∧ InHand .wait b (withBlock state b s))
    ∧ ((waitBlock 2 0 .handed).u8 32 = 2 ∧ (waitBlock 0 0 .handed).u8 32 = 0
      ∧ (waitBlock 0 0 .handed).field 34 2 = 0 ∧ (waitBlock 0 1 .handed).field 34 2 = 1
      ∧ (waitBlock 1 0 .handed).u8 32 = 1)
    ∧ (run.clipList = [] ∧ run.entries .master = [] ∧ run.entries .proxy = []
      ∧ (withClips clip none run).clipList ≠ [])
    ∧ (∀ left ∈ [1, 2],
      let b := waitBlock 0 3 (.inFlight (.frames left))
      let s := withBlock .waiting b run
      Calm s ∧ FliesAs (.frames left) b s ∧ s.walker.state = .waiting ∧ s.intake.state = .running) := by decide

/-- A WAIT for DRAINED in flight. -/
def drainedFlight : Block := waitBlock 1 0 (.inFlight .drained)

/-- `s` with that WAIT in flight. -/
def draining (s : State) : State := withBlock .waiting drainedFlight s

/-- The clip of `writing`, CLOSING, with its proxy trailer written or still to be written. -/
def trailerLeft (written : Bool) : State :=
  draining (withClips
    { clip with closing := some ⟨6, .cutStopped⟩, queued := ⟨true, true⟩, written := ⟨false, written⟩ } (some 6)
    (writing .trailer 100 0))

theorem witness_WaitTaken_retired :
    ∀ written ∈ [true, false],
      let s := trailerLeft written
      NoRelinquish s ∧ s.walker.state = .waiting ∧ FliesAs .drained drainedFlight s
        ∧ OnPort (writerRequester .master) .entry writerBytes s
        ∧ (s.entries .master).head? = some (entryOf .trailer 100) ∧ (entryOf .trailer 100).kind = .trailer
        ∧ (s.writer .master).current = some (current 0)
        ∧ (entryOf .trailer 100).size ≤ (s.writer .master).written + writerBytes.length
        ∧ s.clipList.map (fun c => (some c.number, c.written))
          = [((entryOf .trailer 100).clip, ⟨false, written⟩)]
        ∧ (s.entries .master).tail = [] ∧ s.entries .proxy = [] := by
  intro written h
  exact ⟨each_stream rfl rfl, by revert written; decide⟩

theorem witness_WaitTaken_cancelled :
    ∀ q ∈ [LineRequest.cut, .toggle], ∀ entries ∈ [[], [entryOf .coded 100]],
      let s := draining (withRequest q (withQueue entries (withClips clip (some 4) run)))
      NoRelinquish s ∧ s.walker.state = .waiting ∧ FliesAs .drained drainedFlight s ∧ Records clip s
        ∧ firstRequest 0 s.lines.requests = some q
        ∧ s.clips.recentStart.all (fun x => isBelow x clip.first) = true
        ∧ (∀ d ∈ s.clipList, d = clip) ∧ s.entries .master = entries ∧ s.entries .proxy = [] := by
  intro q hq entries he
  exact ⟨each_stream rfl rfl, by revert q entries; decide⟩

theorem witness_StopRequested_drained :
    NoRelinquish (draining run) ∧ (draining run).walker.state = .waiting
      ∧ FliesAs .drained drainedFlight (draining run) :=
  ⟨each_stream rfl rfl, rfl, rfl, rfl⟩

/-- FREEZE is set and a page address is in force. -/
def frozen : State :=
  { run with
    notices := { run.notices with freeze := true }
    page := { run.page with address := some 0x50000, owed := true } }

/-- A rewrite that has not begun waits while the master writer's burst is on the port. -/
def rewriteWaiting : State :=
  { withBurst .master writerBytes run with
    arbiter := { (withBurst .master writerBytes run).arbiter with
      bursts := ⟨none, some ⟨.rewrite, 0x50000, 256, []⟩, some writerBytes, none⟩ }
    page := { run.page with address := some 0x50000, owed := true, begun := false } }

theorem witness_FreezeActs_waiting :
    Calm rewriteWaiting ∧ rewriteWaiting.notices.freeze = false ∧ rewriteWaiting.page.owed = true
      ∧ (rewriteWaiting.arbiter.bursts.page.all fun b => b.kind == .rewrite && !rewriteWaiting.page.begun) = true
      ∧ (rewriteWaiting.arbiter.bursts.page.any fun b => b.kind == .rewrite) = true
      ∧ rewriteWaiting.arbiter.port ≠ some .page ∧ rewriteWaiting.page.results = [] := by decide

theorem witness_FreezeActs :
    (Calm run ∧ run.notices.freeze = false ∧ run.arbiter.port ≠ some .page ∧ run.page.results = [])
    ∧ (Calm frozen ∧ frozen.notices.freeze = true ∧ frozen.page.address = some 0x50000
      ∧ frozen.arbiter.port = none ∧ frozen.page.results = [])
    ∧ (Calm rewriting ∧ rewriting.arbiter.port = some .page
      ∧ rewriting.arbiter.bursts.page = some ⟨.rewrite, 0x50000, 1, [7]⟩) := by decide

theorem witness_RegisterWindow :
    ((0x14 : BitVec 5) ≤ 0x14 ∧ (0x14 : BitVec 5) ≤ 0x1F ∧ (0x1F : BitVec 5) ≤ 0x1F)
    ∧ (0x14 : BitVec 5) ∉ [(0x04 : BitVec 5), 0x08, 0x0C, 0x10] ∧ (0 : BitVec 5) ∉ [(0x04 : BitVec 5), 0x08, 0x0C, 0x10]
    ∧ (0x4000 : BitVec 32).getLsbD 14 = true ∧ (0xBFFF : BitVec 32).getLsbD 14 = false
    ∧ (reportFault ⟨.frameLost, .pictureIntake, none, none, none⟩ run).isPending .fault = true := by decide

theorem witness_FreezeActs_free :
    (∀ r, frozen.arbiter.bursts.get r = none)
      ∧ ∀ st, (frozen.writer st).current = none ∧ (frozen.writer st).segments = [] :=
  ⟨each_requester rfl rfl rfl rfl, each_stream (by decide) (by decide)⟩

/-- An engine reset is in progress. -/
def resetting (segments : List Segment) : State :=
  let s := withWriter segments none 0 run
  { s with walker := { s.walker with state := .resetting } }

theorem witness_EngineResetActs :
    (resetting []).walker.state = .resetting ∧ (resetting []).walker.block = none ∧ run.walker.state ≠ .resetting
      ∧ (resetting []).arbiter.resetBurst = false ∧ (resetting []).page.results = []
      ∧ ((resetting [segment]).writer .master).segments ≠ [] := by decide

theorem witness_EngineResetActs_returns :
    let u : Burst := ⟨.resultCount, 0x40022, 1, [1]⟩
    let v := withBurst .page u (resetting [segment])
    let s : State := { v with page := { v.page with results := [result false] } }
    s.walker.state = .resetting ∧ (s.writer .master).relinquish = none ∧ (s.writer .proxy).relinquish = none
      ∧ s.arbiter.port = some .page ∧ s.arbiter.bursts.page = some u ∧ u.kind = .resultCount
      ∧ s.page.results = [result false] ∧ (result false).counted = false
      ∧ (s.writer .master).current = none ∧ (s.writer .master).segments = [segment] := by decide

/-- An engine reset has begun while a burst of a requester was in progress. -/
def orphaned (r : Requester) (kind : BurstKind) : State :=
  let s := withBurst r ⟨kind, 0x40200, 32, []⟩ (resetting [segment])
  { s with arbiter := { s.arbiter with resetBurst := true } }

theorem witness_EngineResetActs_orphan :
    ∀ p ∈ [(Requester.walker, BurstKind.header), (.walker, .outcome), (writerRequester .proxy, .entry)],
      let s := orphaned p.1 p.2
      s.walker.state = .resetting ∧ s.walker.block = none ∧ s.arbiter.resetBurst = true
        ∧ s.arbiter.port = some p.1 ∧ s.arbiter.bursts.get p.1 = some ⟨p.2, 0x40200, 32, []⟩ := by decide

theorem witness_EngineResetActs_clear :
    NoRelinquish (resetting []) ∧ ∀ st, ((resetting []).writer st).segments = []
      ∧ ((resetting []).writer st).current = none :=
  ⟨each_stream rfl rfl, each_stream (by decide) (by decide)⟩

end Sys2Proof.Tests
end

section
/-! SUPPORT. What the Queue Manager and Clip Control can do while an entry joins its queue, and what the coders
can do while they take items from their lists: each operation says once what it leaves as it was. -/

namespace Sys2Proof.Proofs

open Sys2Proof.Machine Sys2Proof.Laws

/-! ## Joining a queue -/

/-- `s` with everything blanked that a joining entry may change: the queues, the aging line, the clip table and
what goes with a break or a retirement, the pending notices, the error log and the owed flag. -/
def besidesQueues (s : State) : State :=
  { s with
    queue := { s.queue with queues := ⟨⟨[], false⟩, ⟨[], false⟩⟩, agingLine := 0 }
    clips := { s.clips with
      table := [], rollFloor := 0, held := [], lastEvent := none, lamp := .dark, blinkTimer := none }
    notices := { s.notices with pending := 0, log := none, later := 0 }
    page := { s.page with owed := false } }

/-- `t` comes from `s` by the work of the Queue Manager and Clip Control on entries that join (chapters 5
and 6): nothing beside the queues changes, the clip table keeps its size, and no notice is cleared. -/
structure QueueWork (s t : State) : Prop where
  besides : besidesQueues t = besidesQueues s
  records : t.clips.table.length = s.clips.table.length
  raises : ∀ n, s.isPending n = true → t.isPending n = true

theorem QueueWork.refl (s : State) : QueueWork s s := ⟨rfl, rfl, fun _ => id⟩

theorem QueueWork.trans {s t u : State} (h : QueueWork s t) (k : QueueWork t u) : QueueWork s u :=
  ⟨k.besides.trans h.besides, k.records.trans h.records, fun n p => k.raises n (h.raises n p)⟩

theorem QueueWork.ite {s t u : State} {p : Prop} [Decidable p] (h : QueueWork s t) (k : QueueWork s u) :
    QueueWork s (if p then t else u) := by
  split
  · exact h
  · exact k

theorem QueueWork.foldl {α : Type} {f : State → α → State} (h : ∀ s a, QueueWork s (f s a)) (l : List α)
    (s : State) : QueueWork s (l.foldl f s) := by
  induction l generalizing s with
  | nil => exact .refl s
  | cons a rest ih => exact (h s a).trans (ih _)

theorem raise_work (n : Notice) (s : State) : QueueWork s (raise n s) :=
  ⟨rfl, rfl, fun m p => by rw [isPending_raise, p]; rfl⟩

theorem raiseIf_work (b : Bool) (n : Notice) (s : State) : QueueWork s (raiseIf b n s) :=
  QueueWork.ite (raise_work n s) (.refl s)

theorem logFault_work (f : FaultReport) (s : State) : QueueWork s { s with notices := logFault f s } := by
  unfold logFault
  split <;> exact ⟨rfl, rfl, fun _ => id⟩

theorem reportFault_work (f : FaultReport) (s : State) : QueueWork s (reportFault f s) :=
  (logFault_work f s).trans (raise_work _ _)

theorem putQueue_work (st : Stream) (es : List Entry) (s : State) : QueueWork s (putQueue st es s) :=
  QueueWork.trans (by cases st <;> exact ⟨rfl, rfl, fun _ => id⟩) (raiseIf_work _ _ _)

theorem dropHeldMarks_work (x : Frame) (s : State) : QueueWork s (dropHeldMarks x s) := ⟨rfl, rfl, fun _ => id⟩

theorem agingLine_work (x : Frame) (s : State) :
    QueueWork s { s with queue := { s.queue with agingLine := x } } := ⟨rfl, rfl, fun _ => id⟩

theorem setAging_work (x : Frame) (s : State) : QueueWork s (setAging x s) :=
  (((agingLine_work x s).trans (putQueue_work .master _ _)).trans (putQueue_work .proxy _ _)).trans
    (dropHeldMarks_work x _)

theorem ageToLimit_work (fuel : Nat) (s : State) : QueueWork s (ageToLimit fuel s) := by
  induction fuel generalizing s with
  | zero => exact .refl s
  | succ fuel ih =>
    unfold ageToLimit
    split
    · exact .refl s
    · split
      · exact .refl s
      · exact (setAging_work _ s).trans (ih _)

theorem ageForRoom_work (st : Stream) (size : Nat) (first : Frame) (fuel : Nat) (s : State) :
    QueueWork s (ageForRoom st size first fuel s) := by
  induction fuel generalizing s with
  | zero => exact .refl s
  | succ fuel ih =>
    unfold ageForRoom
    split
    · exact .refl s
    · split
      · exact .refl s
      · exact .ite ((setAging_work _ s).trans (ih _)) (.refl s)

theorem makeRoom_work (e : Entry) (s : State) : QueueWork s (makeRoom e s) := ageForRoom_work _ _ _ _ s

theorem changeClip_work (n : Nat) (f : Clip → Clip) (s : State) : QueueWork s (changeClip n f s) :=
  ⟨rfl, by simp [changeClip], fun _ => id⟩

theorem clipEvent_work (event : ClipEvent) (n : Nat) (s : State) : QueueWork s (clipEvent event n s) :=
  QueueWork.trans (t := { s with clips := { s.clips with lastEvent := some (event, n) } }) ⟨rfl, rfl, fun _ => id⟩
    (raise_work .clip _)

theorem raiseFloor_work (x : Frame) (s : State) : QueueWork s (raiseFloor x s) := ⟨rfl, rfl, fun _ => id⟩

theorem lampOut_work (s : State) : QueueWork s (lampOut s) := QueueWork.ite ⟨rfl, rfl, fun _ => id⟩ (.refl s)

theorem queueTrailers_work (c : Clip) (k : Closing) (s : State) : QueueWork s (queueTrailers c k s) :=
  ((putQueue_work .master _ s).trans (putQueue_work .proxy _ _)).trans (changeClip_work _ _ _)

theorem testTrailers_work (n : Nat) (s : State) : QueueWork s (testTrailers n s) := by
  unfold testTrailers
  split
  · exact .refl s
  · split
    · exact .refl s
    · exact queueTrailers_work _ _ s

theorem reportPiece_work (n : Nat) (st : Stream) (e : Entry) (s : State) : QueueWork s (reportPiece n st e s) :=
  (changeClip_work n _ s).trans (testTrailers_work n _)

theorem breakReported_work (n : Nat) (x : Frame) (st : Stream) (was : Bool) (s : State) :
    QueueWork s (breakReported n x st was s) := by
  have told : QueueWork s (clipEvent .broken n
      (reportFault ⟨.queueFull, .clipControl, none, some x, some st⟩ (raiseFloor x s))) :=
    ((raiseFloor_work x s).trans (reportFault_work _ _)).trans (clipEvent_work .broken n _)
  exact .ite (told.trans (lampOut_work _)) told

theorem breakClip_work (n : Nat) (index : Bool) (e : Entry) (s : State) : QueueWork s (breakClip n index e s) :=
  (((((changeClip_work n _ s).trans (putQueue_work .master _ _)).trans (putQueue_work .proxy _ _)).trans
    (breakReported_work _ _ _ _ _)).trans (setAging_work _ _)).trans (testTrailers_work _ _)

theorem placeCommitted_work (n : Nat) (e : Entry) (s : State) : QueueWork s (placeCommitted n e s) :=
  (putQueue_work _ _ s).trans (reportPiece_work _ _ _ _)

theorem placeHeld_work (e : Entry) (s : State) : QueueWork s (placeHeld e s) := by
  unfold placeHeld
  dsimp only
  split
  · exact (putQueue_work _ _ s).trans (ageToLimit_work _ _)
  · exact putQueue_work _ _ s

theorem replaceOrBreak_work (n : Nat) (index : Bool) (e : Entry) (s : State) :
    QueueWork s (replaceOrBreak n index e s) :=
  .ite (.ite (placeCommitted_work _ _ s) (breakClip_work _ _ _ s)) (breakClip_work _ _ _ s)

theorem settlePiece_work (cls : FrameClass) (e : Entry) (s : State) : QueueWork s (settlePiece cls e s) := by
  cases cls with
  | committed n =>
    exact .ite ((makeRoom_work e s).trans (placeCommitted_work n e _))
      ((makeRoom_work e s).trans (replaceOrBreak_work _ _ _ _))
  | held =>
    exact .ite ((makeRoom_work e s).trans (placeHeld_work e _)) ((makeRoom_work e s).trans (setAging_work _ _))
  | dropped => exact .refl s

/-- All that an entry's joining can do, once its intake mark is set. -/
theorem join_work (e : Entry) (s : State) : QueueWork (markIntake e s) (join e s) :=
  .foldl (fun _ _ => settlePiece_work _ _ _) _ _

/-! ## The coders -/

/-- `s` with everything blanked that the coders may change while they take items from their lists: beside the
queues the intake marks, the slots, the lists, the pictures in hand and the governor's books. -/
def besidesCoders (s : State) : State :=
  let u := besidesQueues s
  { u with
    queue := { u.queue with intakeMarks := ⟨none, none⟩ }
    slots := []
    inputs := ⟨[], []⟩
    master := { u.master with picture := none }
    proxy := { u.proxy with picture := none }
    governor := { Governor.reset with inputs := u.governor.inputs } }

/-- `t` comes from `s` by the work of the coders and of the blocks that take their entries (chapters 2 to 6):
a FREE slot stays FREE, since a coder only releases slots (R8). -/
structure CoderWork (s t : State) : Prop where
  besides : besidesCoders t = besidesCoders s
  records : t.clips.table.length = s.clips.table.length
  raises : ∀ n, s.isPending n = true → t.isPending n = true
  slots : t.slots.length = s.slots.length
  free : ∀ i : Nat, s.slots[i]? = some Slot.empty → t.slots[i]? = some Slot.empty

theorem CoderWork.refl (s : State) : CoderWork s s := ⟨rfl, rfl, fun _ => id, rfl, fun _ => id⟩

theorem CoderWork.trans {s t u : State} (h : CoderWork s t) (k : CoderWork t u) : CoderWork s u :=
  ⟨k.besides.trans h.besides, k.records.trans h.records, fun n p => k.raises n (h.raises n p),
    k.slots.trans h.slots, fun i p => k.free i (h.free i p)⟩

theorem QueueWork.slots {s t : State} (h : QueueWork s t) : t.slots = s.slots := (congrArg State.slots h.besides :)

theorem QueueWork.coders {s t : State} (h : QueueWork s t) : CoderWork s t :=
  ⟨(congrArg besidesCoders h.besides :), h.records, h.raises, congrArg List.length h.slots,
    fun i p => by rw [h.slots]; exact p⟩

theorem changeAt_eq_modify {α : Type} (f : α → α) (i : Nat) (l : List α) : changeAt f i l = l.modify i f := by
  induction l generalizing i with
  | nil => cases i <;> rfl
  | cons a rest ih =>
    cases i with
    | zero => rfl
    | succ i => rw [changeAt, ih, List.modify_succ_cons]

theorem changeAt_const {α : Type} (a : α) (i : Nat) (l : List α) : changeAt (fun _ => a) i l = l.set i a := by
  rw [changeAt_eq_modify, List.set_eq_modify]

theorem releaseSlot_work (i : Nat) (s : State) : CoderWork s (releaseSlot i s) where
  besides := rfl
  records := rfl
  raises _ := id
  slots := by simp [releaseSlot, changeAt_eq_modify]
  free j h := by
    simp only [releaseSlot, changeAt_eq_modify, List.getElem?_modify, h, Option.map_eq_map, Option.map_some]
    split <;> rfl

theorem markIntake_work (e : Entry) (s : State) : CoderWork s (markIntake e s) := by
  unfold markIntake
  cases e.stream <;> exact ⟨rfl, rfl, fun _ => id, rfl, fun _ => id⟩

theorem join_coders (e : Entry) (s : State) : CoderWork s (join e s) :=
  (markIntake_work e s).trans (join_work e s).coders

theorem handGaps_work (st : Stream) (fuel : Nat) (first : Frame) (count : Nat) (label : Label) (s : State) :
    CoderWork s (handGaps st fuel first count label s) := by
  induction fuel generalizing first count label s with
  | zero => exact .refl s
  | succ fuel ih =>
    unfold handGaps
    split
    · exact .refl s
    · exact (join_coders _ s).trans (ih _ _ _ _)

theorem handToken_work (st : Stream) (first : Frame) (count : Nat) (label : Label) (s : State) :
    CoderWork s (handToken st first count label s) := handGaps_work st _ first count label s

theorem inputs_work (lists : Per (List Item)) (s : State) : CoderWork s { s with inputs := lists } :=
  ⟨rfl, rfl, fun _ => id, rfl, fun _ => id⟩

theorem beginMaster_work (item : SlotItem) (s : State) : CoderWork s (beginMaster item s) :=
  ⟨rfl, rfl, fun _ => id, rfl, fun _ => id⟩

theorem beginProxy_work (item : SlotItem) (q : Nat) (s : State) : CoderWork s (beginProxy item q s) :=
  ⟨rfl, rfl, fun _ => id, rfl, fun _ => id⟩

theorem runMaster_work (fuel : Nat) (s : State) : CoderWork s (runMaster fuel s) := by
  induction fuel generalizing s with
  | zero => exact .refl s
  | succ fuel ih =>
    unfold runMaster
    split
    · exact .refl s
    · split
      · exact .refl s
      · exact (inputs_work _ s).trans (beginMaster_work _ _)
      · exact ((inputs_work _ s).trans (handToken_work .master _ _ _ _)).trans (ih _)

theorem afterDecision_inputs (r : Rate) (g : Governor) : (afterDecision r g).inputs = g.inputs := by
  unfold afterDecision
  split
  · rfl
  all_goals split <;> rfl

theorem takeProxyItem_work (item : SlotItem) (s : State) : CoderWork s (takeProxyItem item s) := by
  have decided : CoderWork s { s with governor := afterDecision s.rate s.governor } :=
    ⟨by simp [besidesCoders, besidesQueues, afterDecision_inputs], rfl, fun _ => id, rfl, fun _ => id⟩
  unfold takeProxyItem
  dsimp only
  split
  · exact (decided.trans (join_coders _ _)).trans (releaseSlot_work _ _)
  · exact decided.trans (beginProxy_work _ _ _)

theorem runProxy_work (fuel : Nat) (s : State) : CoderWork s (runProxy fuel s) := by
  induction fuel generalizing s with
  | zero => exact .refl s
  | succ fuel ih =>
    unfold runProxy
    split
    · exact .refl s
    · split
      · exact .refl s
      · exact ((inputs_work _ s).trans (takeProxyItem_work _ _)).trans (ih _)
      · exact ((inputs_work _ s).trans (handToken_work .proxy _ _ _ _)).trans (ih _)

theorem runCoders_work (s : State) : CoderWork s (runCoders s) := (runMaster_work _ s).trans (runProxy_work _ _)

theorem CoderWork.intake {s t : State} (h : CoderWork s t) : t.intake = s.intake :=
  (congrArg State.intake h.besides :)

end Sys2Proof.Proofs
end

section
/-! SUPPORT. What every command leaves of the host's settings, of the sizes that the manual fixes and of the form
of shared memory: each operation keeps them, but for those of its owner. -/

namespace Sys2Proof.Proofs

open Sys2Proof.Machine Sys2Proof.Laws

/-! ## Owners and what they own -/

/-- Whose command may change a setting of the host. -/
inductive Owner where
  | nobody
  | setup
  | tune
  | lines
  | mask
  | freeze
  deriving DecidableEq

/-- What a SETUP sets (R4, R40, R183). -/
def setupPart (s : State) := (s.intake.geometry, s.proxy.filter, s.page.address)

/-- What a TUNE sets (R29, R51, R78, R91, R113, R136, R153). -/
def tunePart (s : State) :=
  (s.master.settings, s.governor.inputs, (s.queue.depth, s.queue.highMark), (s.clips.tallyMode, s.clips.blinkTime),
    (s.writers.watermark, s.writers.gapTime, s.writers.retry), s.arbiter.high, s.lines.sync.tolerance)

/-- What a LINES sets of one line (R144). -/
def lineSettings (l : Line) := (l.role, l.edge, l.active, l.idle, l.filter)

/-- What a LINES sets (R144). -/
def linesPart (s : State) := s.lines.lines.map lineSettings

/-- The numbers of slots, clip records and lines (R7, R94, chapter 8). -/
def sizes (s : State) := (s.slots.length, s.clips.table.length, s.lines.lines.length)

/-- `t` has the settings of `s`, but for those of `o`, and the shape that every step keeps if `s` has it. -/
structure Keeps (o : Owner) (s t : State) : Prop where
  setup : o ≠ .setup → setupPart t = setupPart s
  tune : o ≠ .tune → tunePart t = tunePart s
  lines : o ≠ .lines → linesPart t = linesPart s
  mask : o ≠ .mask → t.notices.mask = s.notices.mask
  freeze : o ≠ .freeze → t.notices.freeze = s.notices.freeze
  shape : Shaped s → Shaped t

theorem shaped_of_sizes {s t : State} (h : sizes t = sizes s)
    (m : Memory.wf s.shared = true → Memory.wf t.shared = true) (w : Shaped s) : Shaped t := by
  simp only [sizes, Prod.mk.injEq] at h
  obtain ⟨slots, clips, lines⟩ := h
  exact ⟨slots.trans w.slots, clips.trans w.clips, lines.trans w.lines, m w.memory⟩

variable {o : Owner}

theorem Keeps.refl (s : State) : Keeps o s s :=
  ⟨fun _ => rfl, fun _ => rfl, fun _ => rfl, fun _ => rfl, fun _ => rfl, id⟩

theorem Keeps.trans {s t u : State} (h : Keeps o s t) (k : Keeps o t u) : Keeps o s u :=
  ⟨fun n => (k.setup n).trans (h.setup n), fun n => (k.tune n).trans (h.tune n),
    fun n => (k.lines n).trans (h.lines n), fun n => (k.mask n).trans (h.mask n),
    fun n => (k.freeze n).trans (h.freeze n), fun w => k.shape (h.shape w)⟩

theorem Keeps.ite {s t u : State} {p : Prop} [Decidable p] (h : Keeps o s t) (k : Keeps o s u) :
    Keeps o s (if p then t else u) := by
  split
  · exact h
  · exact k

/-- All settings, the sizes and the bytes of shared memory. -/
def allParts (s : State) :=
  (setupPart s, tunePart s, s.lines.lines.map lineSettings, s.notices.mask, s.notices.freeze, sizes s, s.shared)

theorem Keeps.of_eq {s t : State} (h : allParts t = allParts s) : Keeps o s t := by
  simp only [allParts, Prod.mk.injEq] at h
  obtain ⟨setup, tune, lines, mask, freeze, size, shared⟩ := h
  exact ⟨fun _ => setup, fun _ => tune, fun _ => lines, fun _ => mask, fun _ => freeze,
    shaped_of_sizes size fun w => by rw [shared]; exact w⟩

theorem Keeps.foldl {α : Type} {f : State → α → State} (h : ∀ s a, Keeps o s (f s a)) (l : List α) (s : State) :
    Keeps o s (l.foldl f s) := by
  induction l generalizing s with
  | nil => exact .refl s
  | cons a rest ih => exact (h s a).trans (ih _)

theorem followedBy_keeps {s t : State} (h : FollowedBy s t) : Keeps o s t := .of_eq (by
  simp only [allParts, setupPart, tunePart, sizes, h.intake.intake, h.intake.slots, h.coders.master,
    h.coders.proxy, h.coders.governor, h.records.queue, h.records.clips, h.lines, h.settings.mask, h.settings.freeze,
    h.settings.address, h.settings.watermark, h.settings.gapTime, h.settings.retry, h.settings.high, h.shared])

theorem coderWork_keeps {s t : State} (h : CoderWork s t) : Keeps o s t where
  setup _ := (congrArg setupPart h.besides :)
  tune _ := (congrArg tunePart h.besides :)
  lines _ := (congrArg linesPart h.besides :)
  mask _ := (congrArg (fun u => u.notices.mask) h.besides :)
  freeze _ := (congrArg (fun u => u.notices.freeze) h.besides :)
  shape := by
    have lines : t.lines = s.lines := (congrArg State.lines h.besides :)
    have shared : t.shared = s.shared := (congrArg State.shared h.besides :)
    exact shaped_of_sizes (by rw [sizes, sizes, h.slots, h.records, lines]) fun w => by rw [shared]; exact w

theorem queueWork_keeps {s t : State} (h : QueueWork s t) : Keeps o s t := coderWork_keeps h.coders

theorem settle_keeps {s t : State} (h : Keeps o s t) : Keeps o s (settle t) :=
  h.trans (followedBy_keeps (settle_followedBy t))

theorem complete_keeps {s t : State} (h : Keeps o s t) (v : Verdict) (detail : Nat) :
    Keeps o s (complete v detail t) := h.trans (followedBy_keeps (complete_followedBy v detail t))

theorem changeWalker_keeps (f : Walker → Walker) (s : State) : Keeps o s (changeWalker f s) := .of_eq rfl

theorem raise_keeps (n : Notice) (s : State) : Keeps o s (raise n s) := .of_eq rfl

theorem raiseIf_keeps (b : Bool) (n : Notice) (s : State) : Keeps o s (raiseIf b n s) := queueWork_keeps (raiseIf_work b n s)

theorem reportFault_keeps (f : FaultReport) (s : State) : Keeps o s (reportFault f s) :=
  queueWork_keeps (reportFault_work f s)

theorem putQueue_keeps (st : Stream) (es : List Entry) (s : State) : Keeps o s (putQueue st es s) :=
  queueWork_keeps (putQueue_work st es s)

theorem changeClip_keeps (n : Nat) (f : Clip → Clip) (s : State) : Keeps o s (changeClip n f s) :=
  queueWork_keeps (changeClip_work n f s)

theorem putWriter_keeps (st : Stream) (w : Writer) (s : State) : Keeps o s (putWriter st w s) := .of_eq rfl

/-! ## Bursts -/

theorem writeBytes_keeps (a : Nat) (bytes : List Byte) (s : State) :
    Keeps o s { s with shared := writeBytes s.shared a bytes } :=
  ⟨fun _ => rfl, fun _ => rfl, fun _ => rfl, fun _ => rfl, fun _ => rfl,
    shaped_of_sizes rfl fun w => writeBytes_wf w a bytes⟩

theorem forgetBytes_keeps (a n : Nat) (s : State) : Keeps o s { s with shared := forgetBytes s.shared a n } :=
  ⟨fun _ => rfl, fun _ => rfl, fun _ => rfl, fun _ => rfl, fun _ => rfl,
    shaped_of_sizes rfl fun w => forgetBytes_wf w a n⟩

theorem freePort_keeps (s : State) : Keeps o s (freePort s) := .of_eq rfl

theorem dropBurst_keeps (r : Requester) (s : State) : Keeps o s (dropBurst r s) := .of_eq rfl

theorem endBurst_keeps (r : Requester) (b : Burst) (s : State) : Keeps o s (endBurst r b s) :=
  ((freePort_keeps s).trans (dropBurst_keeps r _)).trans (writeBytes_keeps _ _ _)

theorem answerOk_keeps {act : Burst → State → State} (h : ∀ b s, Keeps o s (act b s)) (r : Requester)
    (kind : BurstKind) (s : State) : Keeps o s (answerOk r kind act s) := by
  unfold answerOk
  split
  · exact .refl s
  · next b _ => exact settle_keeps (.ite (endBurst_keeps r b s) ((endBurst_keeps r b s).trans (h b _)))

theorem resultSlotWritten_keeps (s : State) : Keeps o s (resultSlotWritten s) := by
  unfold resultSlotWritten
  split
  · exact .refl s
  · exact .of_eq rfl

theorem countRelinquished_keeps (r : Result) (s : State) : Keeps o s (countRelinquished r s) :=
  .ite (putWriter_keeps _ _ s) (.refl s)

theorem segmentReturned_keeps (s : State) : Keeps o s (segmentReturned s) := by
  unfold segmentReturned
  split
  · exact .refl s
  · next r rest _ =>
    have returned : Keeps o s (freeGrants (raise (.returned r.stream)
        { s with page := { s.page with results := rest } })) := .of_eq rfl
    exact returned.trans (countRelinquished_keeps r _)

theorem freeClip_work (n : Nat) (s : State) : QueueWork s (freeClip n s) := ⟨rfl, by simp [freeClip], fun _ => id⟩

theorem trailerWritten_work (n : Nat) (st : Stream) (s : State) : QueueWork s (trailerWritten n st s) := by
  unfold trailerWritten
  dsimp only
  split
  · exact changeClip_work _ _ s
  · exact .ite (((changeClip_work _ _ s).trans (freeClip_work n _)).trans (clipEvent_work _ _ _))
      (changeClip_work _ _ s)

theorem removeFront_work (st : Stream) (e : Entry) (s : State) : QueueWork s (removeFront st e s) := by
  have removed := putQueue_work st (s.entries st).tail s
  unfold removeFront
  dsimp only
  split
  · split
    · exact removed.trans (trailerWritten_work _ _ _)
    · exact removed
  · exact removed

theorem closeSegment_keeps {s t : State} (h : Keeps o s t) (st : Stream) (r : Reason) :
    Keeps o s (closeSegment st r t) := h.trans (followedBy_keeps (closeSegment_followedBy st r t))

theorem writerAdvanced_keeps (st : Stream) (n : Nat) (s : State) : Keeps o s (writerAdvanced st n s) := by
  unfold writerAdvanced
  dsimp only
  split
  · next e c _ _ =>
    have removed : ∀ w, Keeps o s (if decide (e.size ≤ (s.writer st).written + n) = true
        then removeFront st e (putWriter st w s) else putWriter st w s) := fun w =>
      .ite ((putWriter_keeps st w s).trans (queueWork_keeps (removeFront_work st e _))) (putWriter_keeps st w s)
    split
    · exact closeSegment_keeps (removed _) _ _
    · exact .ite (closeSegment_keeps (removed _) _ _) (removed _)
  · exact .refl s

theorem writerBurstDone_keeps (s : State) : Keeps o s (writerBurstDone s) := by
  unfold writerBurstDone
  split
  · exact .refl s
  · exact answerOk_keeps (fun _ s => writerAdvanced_keeps _ _ s) _ _ s

theorem gapExpired_keeps (st : Stream) (s : State) : Keeps o s (gapExpired st s) :=
  .ite (settle_keeps (putWriter_keeps _ _ s)) (.refl s)

theorem takeBlock_keeps (a : Nat) (s : State) : Keeps o s (takeBlock a s) := .of_eq rfl

theorem startChain_keeps (a : Nat) (s : State) : Keeps o s (startChain a s) := .of_eq rfl

theorem endChain_keeps (s : State) : Keeps o s (endChain s) := by
  unfold endChain
  dsimp only
  split
  · exact ((raise_keeps .chain s).trans (changeWalker_keeps _ _)).trans (startChain_keeps _ _)
  · exact (raise_keeps .chain s).trans (changeWalker_keeps _ _)

theorem endChainFault_keeps (kind : FaultKind) (a : Nat) (x : Frame) (s : State) :
    Keeps o s (endChainFault kind a x s) := (reportFault_keeps _ s).trans (endChain_keeps _)

theorem resultFailed_keeps (b : Burst) (s : State) : Keeps o s (resultFailed b s) := by
  unfold resultFailed
  split
  · exact .refl s
  · next r _ _ =>
    have counted : Keeps o s (if b.kind = .resultSlot then countReturned r.segment.block s else s) :=
      .ite (.of_eq rfl) (.refl s)
    exact (counted.trans (reportFault_keeps _ _)).trans (segmentReturned_keeps _)

theorem writerFailed_keeps (st : Stream) (kind : FaultKind) (b : Burst) (s : State) :
    Keeps o s (writerFailed st kind b s) :=
  ((followedBy_keeps (closeUndone_followedBy st _ _ s)).trans (putWriter_keeps st _ _)).trans (reportFault_keeps _ _)

theorem burstFailed_keeps (r : Requester) (kind : FaultKind) (b : Burst) (s : State) :
    Keeps o s (burstFailed r kind b s) := by
  cases r with
  | walker => exact (changeWalker_keeps _ s).trans (endChainFault_keeps _ _ _ _)
  | page => exact .ite (reportFault_keeps _ s) (resultFailed_keeps b s)
  | master => exact writerFailed_keeps .master kind b s
  | proxy => exact writerFailed_keeps .proxy kind b s

theorem countRetry_keeps (s : State) : Keeps o s (countRetry s) := .of_eq rfl

theorem waitAgain_keeps (r : Requester) (s : State) : Keeps o s (waitAgain r s) := .of_eq rfl

theorem answerRetry_keeps (s : State) : Keeps o s (answerRetry s) := by
  unfold answerRetry
  split
  · exact .refl s
  · next r b _ =>
    have dropped : Keeps o s (dropBurst r (freePort (countRetry s))) :=
      ((countRetry_keeps s).trans (freePort_keeps _)).trans (dropBurst_keeps r _)
    exact settle_keeps (.ite dropped (.ite (dropped.trans (burstFailed_keeps r _ b _))
      ((countRetry_keeps s).trans (waitAgain_keeps r _))))

theorem answerError_keeps (s : State) : Keeps o s (answerError s) := by
  unfold answerError
  split
  · exact .refl s
  · next r b _ =>
    have ended : Keeps o s (dropBurst r (freePort
        { s with shared := forgetBytes s.shared b.address b.data.length })) :=
      ((forgetBytes_keeps _ _ s).trans (freePort_keeps _)).trans (dropBurst_keeps r _)
    exact settle_keeps (.ite ended (ended.trans (burstFailed_keeps r _ b _)))

/-! ## The walker -/

theorem refuseEntry_keeps (r : EntryRefusal) (s : State) : Keeps o s (refuseEntry r s) := .of_eq rfl

theorem takeEntry_keeps (v : BitVec 32) (s : State) : Keeps o s (takeEntry v s) := by
  have hold : Keeps o s (holdEntry (16 * v.toNat) s) := .ite (refuseEntry_keeps _ s) (changeWalker_keeps _ s)
  unfold takeEntry
  refine .ite (refuseEntry_keeps _ s) (.ite (refuseEntry_keeps _ s) ?_)
  split
  · exact refuseEntry_keeps _ s
  · exact startChain_keeps _ s
  all_goals exact hold

theorem goOrAbandon_keeps (f : Flight) (s : State) : Keeps o s (goOrAbandon f s) :=
  followedBy_keeps (goOrAbandon_followedBy f s)

theorem handOver_keeps (kind : DirectiveKind) (s : State) : Keeps o s (handOver kind s) := by
  cases kind with
  | roll => exact goOrAbandon_keeps _ s
  | cut => exact goOrAbandon_keeps _ s
  | _ => exact .of_eq rfl

theorem headerArrived_keeps (bytes : List Byte) (s : State) : Keeps o s (headerArrived bytes s) := by
  unfold headerArrived
  split
  · exact .refl s
  · have fetched : ∀ b, Keeps o s (changeBlock (fun _ => b) s) := fun _ => .of_eq rfl
    dsimp only
    unfold headerChecked
    split
    · exact complete_keeps (fetched _) _ _
    · exact .ite (.ite ((fetched _).trans (handOver_keeps _ _))
        ((fetched _).trans (followedBy_keeps (requestBody_followedBy _ _)))) (complete_keeps (fetched _) _ _)

theorem bodyArrived_keeps (n : Nat) (bytes : List Byte) (s : State) : Keeps o s (bodyArrived n bytes s) := by
  unfold bodyArrived
  split
  · exact .refl s
  · have fetched : ∀ b, Keeps o s (changeBlock (fun _ => b) s) := fun _ => .of_eq rfl
    dsimp only
    refine .ite ((fetched _).trans (followedBy_keeps (requestBody_followedBy _ _))) ?_
    split
    · exact (fetched _).trans (handOver_keeps _ _)
    · exact fetched _

theorem loadActivity_keeps (f : LoadFields) (got : List Byte) (s : State) : Keeps o s (loadActivity f got s) := by
  refine complete_keeps ?_ _ _
  exact .of_eq rfl

theorem loadCurve_keeps (got : List Byte) (s : State) : Keeps o s (loadCurve got s) := by
  unfold loadCurve
  refine complete_keeps ?_ _ _
  exact .of_eq rfl

theorem sourceArrived_keeps (n : Nat) (bytes : List Byte) (s : State) : Keeps o s (sourceArrived n bytes s) := by
  unfold sourceArrived
  split
  · exact .refl s
  · split
    · exact .ite (followedBy_keeps (requestSource_followedBy _ _ s))
        (.ite (loadActivity_keeps _ _ s) (loadCurve_keeps _ s))
    · exact .refl s

theorem refusedSlotWritten_keeps (s : State) : Keeps o s (refusedSlotWritten s) := by
  unfold refusedSlotWritten
  split
  · exact .refl s
  · split
    · exact followedBy_keeps (requestGrantWrite_followedBy _ _ _ s)
    · exact .refl s

theorem returnedCountWritten_keeps (s : State) : Keeps o s (returnedCountWritten s) := by
  unfold returnedCountWritten
  split
  · exact .refl s
  · split
    · exact complete_keeps (.refl s) _ _
    · exact .refl s

theorem actOn_keeps (c : Continuation) (s : State) : Keeps o s (actOn c s) := by
  cases c with
  | chainEnd => exact endChain_keeps s
  | next a =>
    exact .ite (endChainFault_keeps _ _ _ s) (.ite (endChainFault_keeps _ _ _ s) (takeBlock_keeps a s))

theorem blockComplete_keeps (b : Block) (code : Nat) (x : Frame) (s : State) :
    Keeps o s (blockComplete b code x s) := by
  have told : Keeps o s (raiseIf (b.flag 2) .chain (changeWalker (fun w =>
      { w with lastBlock := some (b.address, x), lastTag := b.hostTag }) s)) :=
    (changeWalker_keeps _ s).trans (raiseIf_keeps _ _ _)
  exact .ite ((told.trans (changeWalker_keeps _ _)).trans (endChain_keeps _))
    (.ite (told.trans (changeWalker_keeps _ _)) (told.trans (actOn_keeps _ _)))

theorem outcomeWritten_keeps (s : State) : Keeps o s (outcomeWritten s) := by
  unfold outcomeWritten
  split
  · exact .refl s
  · split
    · exact blockComplete_keeps _ _ _ s
    · exact .refl s

theorem takeHalt_keeps (s : State) : Keeps o s (takeHalt s) := by
  unfold takeHalt
  split
  case h_1 | h_2 => exact changeWalker_keeps _ s
  all_goals exact .refl s

theorem takeResume_keeps (s : State) : Keeps o s (takeResume s) := by
  unfold takeResume
  split
  · exact settle_keeps ((changeWalker_keeps _ s).trans (actOn_keeps _ _))
  · exact .refl s

theorem withdrawFlight_keeps (f : Flight) (s : State) : Keeps o s (withdrawFlight f s) := by
  cases f with
  | stopIntake => exact .ite (.of_eq rfl) (.refl s)
  | relinquish st => exact .of_eq rfl
  | _ => exact .refl s

theorem takeStop_keeps (s : State) : Keeps o s (takeStop s) := by
  have going : Keeps o s (goStopping s) := changeWalker_keeps _ s
  unfold takeStop
  split
  · split
    · exact settle_keeps (complete_keeps (going.trans (withdrawFlight_keeps _ _)) _ _)
    · exact going
  · exact going
  · exact settle_keeps ((changeWalker_keeps _ s).trans (endChain_keeps _))
  all_goals exact .refl s

end Sys2Proof.Proofs
end

section
/-! SUPPORT. What the directives, Clip Control's commands, the event lines, the registers and the pictures' commands
leave of the settings, and so what every command leaves; the statements about shape and settings. -/

namespace Sys2Proof.Proofs

open Sys2Proof.Machine Sys2Proof.Laws

variable {o : Owner}

/-! ## Directives -/

theorem takeDirective_keeps {act : Block → State → State} (h : ∀ b s, Keeps o s (act b s)) (kind : DirectiveKind)
    (s : State) : Keeps o s (takeDirective kind act s) := by
  unfold takeDirective
  split
  · exact .refl s
  · exact settle_keeps (h _ s)

theorem discardHeld_work (s : State) : QueueWork s (discardHeld s) := by
  have lined : QueueWork s { s with
      queue := { s.queue with agingLine := s.intake.counter }, clips := { s.clips with held := [] } } :=
    ⟨rfl, rfl, fun _ => id⟩
  exact (lined.trans (putQueue_work .master _ _)).trans (putQueue_work .proxy _ _)

theorem floorAtNext_work (s : State) : QueueWork s (floorAtNext s) := ⟨rfl, rfl, fun _ => id⟩

theorem setupTaken_keeps (g : Geometry) (filter : Filter) (a : Nat) (s : State) :
    Keeps .setup s (setupTaken g filter a s) := by
  have set : Keeps .setup s
      { s with
        intake := { s.intake with geometry := some g, timecode := legalLabel (rateOf g.code) s.intake.timecode }
        proxy := { s.proxy with filter := filter }
        page := { s.page with address := some a }
        governor := governorSetup (rateOf g.code) s.governor
        queue := { s.queue with limit := prerollLimit (some (rateOf g.code)) s.queue.depth } } :=
    ⟨fun n => absurd rfl n, fun _ => rfl, fun _ => rfl, fun _ => rfl, fun _ => rfl, shaped_of_sizes rfl id⟩
  exact set.trans (queueWork_keeps ((discardHeld_work _).trans (floorAtNext_work _)))

theorem setupDirective_keeps (b : Block) (s : State) : Keeps .setup s (setupDirective b s) := by
  unfold setupDirective
  split
  · exact complete_keeps (.refl s) _ _
  · exact complete_keeps (setupTaken_keeps _ _ _ s) _ _

/-- All but the settings of a TUNE. -/
def besidesTune (s : State) :=
  (setupPart s, s.lines.lines.map lineSettings, s.notices.mask, s.notices.freeze, sizes s, s.shared)

theorem Keeps.of_besidesTune {s t : State} (h : besidesTune t = besidesTune s) : Keeps .tune s t := by
  simp only [besidesTune, Prod.mk.injEq] at h
  obtain ⟨setup, lines, mask, freeze, size, shared⟩ := h
  exact ⟨fun _ => setup, fun n => absurd rfl n, fun _ => lines, fun _ => mask, fun _ => freeze,
    shaped_of_sizes size fun w => by rw [shared]; exact w⟩

theorem floorAtPrerollOn_work (s : State) : QueueWork s (floorAtPrerollOn s) := by
  unfold floorAtPrerollOn
  dsimp only
  split <;> split <;> exact ⟨rfl, rfl, fun _ => id⟩

theorem depthEffects_work (old : Nat) (was : Bool) (s : State) : QueueWork s (depthEffects old was s) := by
  have held : QueueWork s (if s.queue.depth = old then s else if s.queue.depth = 0 then discardHeld s
      else if s.queue.depth < old then enforceLimit s else s) :=
    .ite (.refl s) (.ite (discardHeld_work s) (.ite (ageToLimit_work _ s) (.refl s)))
  exact .ite (held.trans (floorAtPrerollOn_work _)) held

theorem tuneHighMark_keeps (f : TuneFields) (s : State) : Keeps .tune s (tuneHighMark f s) := by
  have marked : Keeps .tune s { s with queue := { s.queue with highMark := clamp 50 95 f.highMark } } :=
    .of_besidesTune rfl
  exact .ite (.refl s) ((marked.trans (putQueue_keeps .master _ _)).trans (putQueue_keeps .proxy _ _))

theorem tuneDepth_keeps (f : TuneFields) (s : State) : Keeps .tune s (tuneDepth f s) := by
  have given : Keeps .tune s { s with
      queue := { s.queue with depth := min f.depth 30, limit := prerollLimit s.rate? (min f.depth 30) } } :=
    .of_besidesTune rfl
  exact given.trans (queueWork_keeps (depthEffects_work _ _ _))

theorem tuneTally_keeps (f : TuneFields) (s : State) : Keeps .tune s (tuneTally f s) := by
  unfold tuneTally
  dsimp only
  split
  · exact .refl s
  · exact .of_besidesTune rfl

theorem tuneWatermark_keeps (f : TuneFields) (s : State) : Keeps .tune s (tuneWatermark f s) := by
  have marked : Keeps .tune s { s with writers := { s.writers with watermark := min f.watermark 47 } } :=
    .of_besidesTune rfl
  exact .ite (.refl s) ((marked.trans (followedBy_keeps (refreshBelow_followedBy .master _))).trans
    (followedBy_keeps (refreshBelow_followedBy .proxy _)))

theorem tuneTaken_keeps (f : TuneFields) (s : State) : Keeps .tune s (tuneTaken f s) := by
  have master : ∀ u, Keeps .tune u (tuneMaster f u) := fun _ => .of_besidesTune rfl
  have governor : ∀ u, Keeps .tune u (tuneGovernor f u) := fun _ => .of_besidesTune rfl
  have blink : ∀ u, Keeps .tune u (tuneBlink f u) := fun _ => .of_besidesTune rfl
  have gap : ∀ u, Keeps .tune u (tuneGap f u) := fun _ => .of_besidesTune rfl
  have priorities : ∀ u, Keeps .tune u (tunePriorities f u) := fun _ => .of_besidesTune rfl
  have tolerance : ∀ u, Keeps .tune u (tuneTolerance f u) := fun _ => .of_besidesTune rfl
  have first := (((master s).trans (governor _)).trans (tuneDepth_keeps f _)).trans (tuneHighMark_keeps f _)
  have second := ((first.trans (tuneTally_keeps f _)).trans (blink _)).trans (gap _)
  exact ((second.trans (tuneWatermark_keeps f _)).trans (priorities _)).trans (tolerance _)

theorem tuneDirective_keeps (b : Block) (s : State) : Keeps .tune s (tuneDirective b s) :=
  complete_keeps (tuneTaken_keeps _ s) _ _

theorem linesUnder_length {b : Block} {m : Nat} {l l' : List Line} (h : linesUnder b m l = some l') :
    l'.length = l.length := by
  induction l generalizing m l' with
  | nil => cases h; rfl
  | cons a rest ih =>
    unfold linesUnder at h
    split at h
    · next tail => cases h; simp [ih tail]
    · cases h

theorem linesTaken_keeps {lines : List Line} {s : State} (h : lines.length = s.lines.lines.length) :
    Keeps .lines s (linesTaken lines s) := by
  have tolerance : ∀ (c : SyncCapture) before after, (syncAfter before after c).tolerance = c.tolerance := by
    intro c before after
    unfold syncAfter
    split <;> rfl
  have taken : Keeps .lines s { s with lines := { s.lines with
      lines := lines, sync := syncAfter (syncLine s.lines.lines) (syncLine lines) s.lines.sync } } :=
    ⟨fun _ => rfl, fun _ => by simp [tunePart, tolerance], fun n => absurd rfl n, fun _ => rfl, fun _ => rfl,
      shaped_of_sizes (by simp [sizes, h]) id⟩
  exact taken.trans (raiseIf_keeps _ _ _)

theorem linesDirective_keeps (b : Block) (s : State) : Keeps .lines s (linesDirective b s) := by
  unfold linesDirective
  split
  · exact complete_keeps (.refl s) _ _
  · next h =>
    exact .ite (complete_keeps (.refl s) _ _) (complete_keeps (linesTaken_keeps (linesUnder_length h)) _ _)

theorem loadDirective_keeps (b : Block) (s : State) : Keeps o s (loadDirective b s) := by
  unfold loadDirective
  refine .ite ?_ (complete_keeps (.refl s) _ _)
  split
  · exact goOrAbandon_keeps _ s
  · exact followedBy_keeps (requestSource_followedBy _ _ s)

theorem grantTaken_keeps (b : Block) (st : Stream) (s : State) : Keeps o s (grantTaken b st s) := by
  have listed := fun l => followedBy_keeps (o := o) (putSegments_followedBy st l s)
  have recorded : ∀ (u : State) g, Keeps o u (changeBlock (fun c => { c with granted := true })
      { u with writers := { u.writers with grants := g } }) := fun _ _ => .of_eq rfl
  exact ((listed _).trans (recorded _ _)).trans (followedBy_keeps (requestGrantWrite_followedBy _ _ _ _))

theorem grantDirective_keeps (b : Block) (s : State) : Keeps o s (grantDirective b s) := by
  unfold grantDirective
  split
  · exact complete_keeps (.refl s) _ _
  · exact grantTaken_keeps b _ s

theorem withdrawBurst_keeps (r : Requester) (s : State) : Keeps o s (withdrawBurst r s) :=
  .ite (.refl s) (dropBurst_keeps r s)

theorem beginRelinquish_keeps (st : Stream) (close : Bool) (s : State) : Keeps o s (beginRelinquish st close s) := by
  unfold beginRelinquish
  dsimp only
  split
  · exact .ite (putWriter_keeps _ _ s) (.ite (putWriter_keeps _ _ s)
      (closeSegment_keeps ((putWriter_keeps _ _ s).trans (withdrawBurst_keeps _ _)) _ _))
  · exact putWriter_keeps _ _ s

theorem relinquishDirective_keeps (b : Block) (s : State) : Keeps o s (relinquishDirective b s) := by
  unfold relinquishDirective
  split
  · exact complete_keeps (.refl s) _ _
  · exact .ite (complete_keeps (.refl s) _ _)
      ((followedBy_keeps (goInFlight_followedBy _ s)).trans (beginRelinquish_keeps _ _ _))

theorem startIntake_keeps (s : State) : Keeps o s (startIntake s) := by
  have running : Keeps o s { s with
      intake := { s.intake with state := .running }, governor := startCredit s.governor } := .of_eq rfl
  exact running.trans (queueWork_keeps ((discardHeld_work _).trans (floorAtNext_work _)))

theorem startDirective_keeps (b : Block) (s : State) : Keeps o s (startDirective b s) := by
  unfold startDirective
  split
  · exact .ite (complete_keeps (startIntake_keeps s) _ _) (complete_keeps (.refl s) _ _)
  all_goals exact complete_keeps (.refl s) _ _

theorem goStopped_keeps (s : State) : Keeps o s (goStopped s) := .of_eq rfl

theorem stopIntake_keeps (s : State) : Keeps o s (stopIntake s) := by
  have stopping : Keeps o s { s with intake := { s.intake with state := .stopping } } := .of_eq rfl
  exact .ite (complete_keeps (goStopped_keeps s) _ _) (.ite (complete_keeps (.refl s) _ _)
    (stopping.trans (followedBy_keeps (goInFlight_followedBy _ _))))

theorem stopDirective_keeps (b : Block) (s : State) : Keeps o s (stopDirective b s) := by
  unfold stopDirective
  split
  case h_3 => exact .ite (complete_keeps (.refl s) _ _) (stopIntake_keeps s)
  all_goals exact complete_keeps (.refl s) _ _

theorem putLabel_keeps (l : Label) (s : State) : Keeps o s (putLabel l s) := .of_eq rfl

theorem timecodeDirective_keeps (b : Block) (s : State) : Keeps o s (timecodeDirective b s) := by
  unfold timecodeDirective
  split
  · exact complete_keeps (.refl s) _ _
  · exact .ite (.ite (complete_keeps (putLabel_keeps _ s) _ _) (complete_keeps (putLabel_keeps _ s) _ _))
      (complete_keeps (.refl s) _ _)

theorem waitDirective_keeps (b : Block) (s : State) : Keeps o s (waitDirective b s) :=
  .ite (.ite (complete_keeps (.refl s) _ _) (goOrAbandon_keeps _ s))
    (.ite (.ite (complete_keeps (.refl s) _ _) (goOrAbandon_keeps _ s)) (complete_keeps (.refl s) _ _))

/-! ## Clip Control -/

theorem lampOn_work (s : State) : QueueWork s (lampOn s) := QueueWork.ite ⟨rfl, rfl, fun _ => id⟩ (.refl s)

theorem placeClip_keeps (k : Nat) (c : Clip) (s : State) : Keeps o s (placeClip k c s) where
  setup _ := rfl
  tune _ := rfl
  lines _ := rfl
  mask _ := rfl
  freeze _ := rfl
  shape := shaped_of_sizes (by simp [sizes, placeClip, changeAt_eq_modify]) id

theorem commitFrom_work (n : Nat) (first : Frame) (s : State) : QueueWork s (commitFrom n first s) := by
  have report : ∀ st u, QueueWork u (reportCommitted n st u) := fun st u =>
    .foldl (fun _ _ => reportPiece_work _ _ _ _) _ u
  exact ((((putQueue_work .master _ s).trans (putQueue_work .proxy _ _)).trans (setAging_work _ _)).trans
    (report .master _)).trans (report .proxy _)

theorem moveMarks_work (n : Nat) (first : Frame) (s : State) : QueueWork s (moveMarks n first s) :=
  (changeClip_work n _ s).trans ⟨rfl, rfl, fun _ => id⟩

theorem openClip_keeps (k : Nat) (first : Frame) (s : State) : Keeps o s (openClip k first s) :=
  (placeClip_keeps k _ s).trans (queueWork_keeps ((((commitFrom_work _ _ _).trans (moveMarks_work _ _ _)).trans
    (clipEvent_work _ _ _)).trans (lampOn_work _)))

theorem rollDirective_keeps (s : State) : Keeps o s (rollDirective s) := by
  unfold rollDirective
  split
  case h_4 => exact complete_keeps (openClip_keeps _ _ s) _ _
  all_goals exact complete_keeps (.refl s) _ _

theorem rollLine_keeps (s : State) : Keeps o s (rollLine s) := by
  unfold rollLine
  split
  · exact .refl s
  · exact queueWork_keeps (clipEvent_work _ _ s)
  · exact queueWork_keeps (clipEvent_work _ _ s)
  · exact openClip_keeps _ _ s

theorem cutClip_work (c : Clip) (s : State) : QueueWork s (cutClip c s) := by
  have close : ∀ x, QueueWork s (closeClip c x s) := fun x =>
    ((((changeClip_work _ _ s).trans (raiseFloor_work _ _)).trans (clipEvent_work _ _ _)).trans
      (lampOut_work _)).trans (testTrailers_work _ _)
  exact .ite (close _) (((freeClip_work _ s).trans (clipEvent_work _ _ _)).trans (lampOut_work _))

theorem cutDirective_keeps (s : State) : Keeps o s (cutDirective s) := by
  unfold cutDirective
  split
  · exact complete_keeps (.refl s) _ _
  · exact complete_keeps (queueWork_keeps (cutClip_work _ s)) _ _

theorem cutLine_keeps (s : State) : Keeps o s (cutLine s) := by
  unfold cutLine
  split
  · exact .refl s
  · exact queueWork_keeps (cutClip_work _ s)

theorem dropRequest_keeps (n : LineNo) (s : State) : Keeps o s (dropRequest n s) := .of_eq rfl

theorem takeRoll_keeps (source : Source) (s : State) : Keeps o s (takeRoll source s) := by
  cases source with
  | directive => exact .ite (settle_keeps (rollDirective_keeps s)) (.refl s)
  | line n => exact .ite (settle_keeps ((dropRequest_keeps n s).trans (rollLine_keeps _))) (.refl s)

theorem takeCut_keeps (source : Source) (s : State) : Keeps o s (takeCut source s) := by
  cases source with
  | directive => exact .ite (settle_keeps (cutDirective_keeps s)) (.refl s)
  | line n => exact .ite (settle_keeps ((dropRequest_keeps n s).trans (cutLine_keeps _))) (.refl s)

theorem takeToggle_keeps (n : LineNo) (s : State) : Keeps o s (takeToggle n s) :=
  .ite (settle_keeps ((dropRequest_keeps n s).trans (.ite (cutLine_keeps _) (rollLine_keeps _)))) (.refl s)

theorem markListed_keeps (s : State) : Keeps o s (markListed s) :=
  (raise_keeps .mark s).trans (.ite (.of_eq rfl) (.refl _))

theorem takeMark_keeps (kind : MarkKind) (source : Source) (s : State) : Keeps o s (takeMark kind source s) := by
  have hold : ∀ m, Keeps o s (holdMark m s) := fun _ => .ite (.of_eq rfl) (.of_eq rfl)
  unfold takeMark
  split
  · exact (changeClip_keeps _ _ s).trans (markListed_keeps _)
  · exact changeClip_keeps _ _ s
  · exact (hold _).trans (markListed_keeps _)
  · exact .of_eq rfl

theorem markDirective_keeps (b : Block) (s : State) : Keeps o s (markDirective b s) := by
  unfold markDirective
  split
  · exact complete_keeps (.refl s) _ _
  · exact complete_keeps (takeMark_keeps _ _ s) _ _

theorem takeMarkFrom_keeps (source : Source) (s : State) : Keeps o s (takeMarkFrom source s) := by
  unfold takeMarkFrom
  split
  · split
    · exact .refl s
    · exact settle_keeps (markDirective_keeps _ s)
  · split
    · exact settle_keeps ((dropRequest_keeps _ s).trans (takeMark_keeps _ _ _))
    · exact .refl s

theorem blinkExpired_keeps (s : State) : Keeps o s (blinkExpired s) := by
  unfold blinkExpired
  split
  · exact .refl s
  · exact .of_eq rfl

/-! ## Event lines -/

theorem judge_keeps (r : CaptureResult) (s : State) : Keeps o s (judge r s) := by
  have hit : ∀ c : SyncCapture, c.afterHit.tolerance = c.tolerance := fun c => by
    unfold SyncCapture.afterHit
    dsimp only
    split
    · rfl
    · rfl
    · split <;> rfl
  have miss : ∀ c : SyncCapture, c.afterMiss.tolerance = c.tolerance := fun c => by
    unfold SyncCapture.afterMiss
    dsimp only
    split
    · split <;> rfl
    · split <;> rfl
    · rfl
  refine Keeps.trans (.of_eq ?_) (raiseIf_keeps _ _ _)
  cases r with
  | hit => simp [allParts, tunePart, setupPart, sizes, changeSync, hit]
  | miss => simp [allParts, tunePart, setupPart, sizes, changeSync, miss]

theorem capture_keeps (phase : Nat) (s : State) : Keeps o s (capture phase s) := by
  refine Keeps.trans (.of_eq ?_) (judge_keeps _ _)
  rfl

theorem syncEdge_keeps (time : Nat) (s : State) : Keeps o s (syncEdge time s) := by
  unfold syncEdge
  split
  · exact capture_keeps _ s
  · exact .refl s

theorem handEdge_keeps (n : LineNo) (l : Line) (level : Level) (time : Nat) (s : State) :
    Keeps o s (handEdge n l level time s) := by
  have hand : ∀ q, Keeps o s (handRequest n q s) := fun _ => .of_eq rfl
  unfold handEdge
  split
  · exact .refl s
  case h_6 => exact syncEdge_keeps time s
  all_goals exact hand _

theorem map_changeAt {α β : Type} {f : α → β} {a b : α} {i : Nat} {l : List α} (h : l[i]? = some a)
    (e : f b = f a) : (changeAt (fun _ => b) i l).map f = l.map f := by
  obtain ⟨lt, rfl⟩ := List.getElem?_eq_some_iff.mp h
  rw [changeAt_const, List.map_set, e, ← List.getElem_map f (h := by simpa using lt), List.set_getElem_self]

theorem changeLine_keeps {n : LineNo} {before after : Line} {s : State} (h : s.line? n = some before)
    (e : lineSettings after = lineSettings before) (time : Nat) :
    Keeps o s (changeLine n time before after s) := by
  have changed : Keeps o s { s with lines := { s.lines with
      lines := changeAt (fun _ => after) n.val s.lines.lines } } :=
    .of_eq (by
      simp only [allParts, tunePart, setupPart, sizes]
      rw [map_changeAt h e, changeAt_const, List.length_set])
  exact .ite ((changed.trans (raise_keeps _ _)).trans (handEdge_keeps _ _ _ _ _)) changed

theorem rawChange_keeps (n : LineNo) (drive : Option Level) (time : Nat) (s : State) :
    Keeps o s (rawChange n drive time s) := by
  have settings : ∀ l : Line, lineSettings (l.driven drive) = lineSettings l := by
    intro l
    unfold Line.driven
    dsimp only
    split
    · rfl
    · split
      · rfl
      all_goals
        split
        · rfl
        · split <;> rfl
  unfold rawChange
  split
  · exact .refl s
  · next h => exact settle_keeps (changeLine_keeps h (settings _) time)

theorem filterExpired_keeps (n : LineNo) (time : Nat) (s : State) : Keeps o s (filterExpired n time s) := by
  have settings : ∀ l : Line, lineSettings l.expired = lineSettings l := by
    intro l
    unfold Line.expired
    split <;> rfl
  unfold filterExpired
  split
  · exact .refl s
  · next h => exact .ite (settle_keeps (changeLine_keeps h (settings _) time)) (.refl s)

/-! ## Registers and engine reset -/

theorem takeFreeze_keeps (level : Bool) (s : State) : Keeps .freeze s (takeFreeze level s) := by
  have freeze : ∀ (u : State) f, Keeps .freeze u { u with notices := { u.notices with freeze := f } } := fun _ _ =>
    ⟨fun _ => rfl, fun _ => rfl, fun _ => rfl, fun _ => rfl, fun n => absurd rfl n, shaped_of_sizes rfl id⟩
  have withdrawn : Keeps .freeze s (if rewriteWaits s then withdrawBurst .page s else s) :=
    .ite (withdrawBurst_keeps _ s) (.refl s)
  exact .ite (.refl s) (settle_keeps (.ite (withdrawn.trans (freeze _ _)) ((freeze s _).trans (.of_eq rfl))))

theorem writeNotice_keeps (v : BitVec 32) (s : State) : Keeps o s (writeNotice v s) :=
  .ite (.of_eq rfl) (.of_eq rfl)

theorem writeMask_keeps (v : BitVec 32) (s : State) : Keeps .mask s (writeMask v s) :=
  ⟨fun _ => rfl, fun _ => rfl, fun _ => rfl, fun n => absurd rfl n, fun _ => rfl, shaped_of_sizes rfl id⟩

theorem governorEngineReset_inputs (r : Option Rate) (g : Governor) :
    (governorEngineReset r g).inputs = g.inputs := by cases r <;> rfl

theorem beginReset_keeps (s : State) : Keeps o s (beginReset s) := by
  have pictures : Keeps o s (resetPictures s) :=
    ⟨fun _ => rfl, fun _ => by simp [tunePart, resetPictures, governorEngineReset_inputs], fun _ => rfl, fun _ => rfl,
      fun _ => rfl, fun w => ⟨List.length_replicate, w.clips, w.lines, w.memory⟩⟩
  have clips : ∀ u, Keeps o u (resetClips u) := fun u =>
    ⟨fun _ => rfl, fun _ => rfl, fun _ => rfl, fun _ => rfl, fun _ => rfl,
      fun w => ⟨w.slots, List.length_replicate, w.lines, w.memory⟩⟩
  have writers : ∀ u, Keeps o u (resetWriters u) := fun _ => .of_eq rfl
  have walker : ∀ u, Keeps o u (resetWalker u) := fun _ => .of_eq rfl
  have sync : ∀ u, Keeps o u (resetSync u) := fun u => by
    refine Keeps.trans (.of_eq ?_) (raiseIf_keeps _ _ _)
    rfl
  exact (((pictures.trans (clips _)).trans (writers _)).trans (walker _)).trans (sync _)

theorem completeReset_keeps (s : State) : Keeps o s (completeReset s) := .of_eq rfl

theorem engineReset_keeps (s : State) : Keeps o s (engineReset s) :=
  .ite (.refl s) (settle_keeps (.ite ((beginReset_keeps s).trans (completeReset_keeps _)) (beginReset_keeps s)))

theorem engineResetComplete_keeps (s : State) : Keeps o s (engineResetComplete s) :=
  .ite (settle_keeps (completeReset_keeps s)) (.refl s)

end Sys2Proof.Proofs
end

section
/-! SUPPORT. What the pictures' commands leave of the settings; then every command, and the statements about the
reset values, the shape and the settings. -/

namespace Sys2Proof.Proofs

open Sys2Proof.Machine Sys2Proof.Laws

variable {o : Owner}

/-! ## Pictures -/

theorem runCoders_keeps {s t : State} (h : Keeps o s t) : Keeps o s (runCoders t) :=
  h.trans (coderWork_keeps (runCoders_work t))

theorem clearArrival_keeps (s : State) : Keeps o s (clearArrival s) := .of_eq rfl

theorem putSlot_keeps (i : Nat) (x : Slot) (s : State) : Keeps o s (putSlot i x s) := .of_eq (by
  simp [allParts, setupPart, tunePart, sizes, putSlot, changeAt_eq_modify])

theorem recordGap_keeps (g : Frame) (label : Label) (s : State) : Keeps o s (recordGap g label s) := .of_eq rfl

theorem endMalformed_keeps (a : Arrival) (i : Nat) (s : State) : Keeps o s (endMalformed a i s) := by
  have freed : Keeps o s (putSlot i Slot.empty (clearArrival s)) := (clearArrival_keeps s).trans (putSlot_keeps _ _ _)
  have counted : ∀ u : State, Keeps o u { u with intake :=
      { u.intake with malformed := countUp countMax u.intake.malformed 1 } } := fun _ => .of_eq rfl
  exact (((freed.trans (counted _)).trans (raise_keeps _ _)).trans (reportFault_keeps _ _)).trans
    (recordGap_keeps _ _ _)

theorem endGood_keeps (a : Arrival) (i : Nat) (s : State) : Keeps o s (endGood a i s) := .of_eq (by
  simp [allParts, setupPart, tunePart, sizes, endGood, appendSlotItem, clearArrival, changeAt_eq_modify])

theorem endUnmarked_keeps (s : State) : Keeps o s (endUnmarked s) := by
  unfold endUnmarked
  split
  · exact .refl s
  · split
    · exact clearArrival_keeps s
    · exact runCoders_keeps (endMalformed_keeps _ _ s)

theorem loseFrame_keeps (a : Arrival) (s : State) : Keeps o s (loseFrame a s) := by
  have counted : Keeps o s { s with intake := { s.intake with lost := countUp countMax s.intake.lost 1 } } :=
    .of_eq rfl
  exact ((counted.trans (raise_keeps _ _)).trans (reportFault_keeps _ _)).trans (recordGap_keeps _ _ _)

theorem startFrame_keeps (s : State) : Keeps o s (startFrame s) := by
  have started : Keeps o s { s with intake := { s.intake with
      counter := s.intake.counter + 1
      timecode := nextLabel s.rate s.intake.timecode
      arrival := some (newArrival s) } } := .of_eq rfl
  unfold startFrame
  dsimp only
  split
  · exact started.trans (putSlot_keeps _ _ _)
  · exact runCoders_keeps (started.trans (loseFrame_keeps _ _))

theorem countWait_keeps (s : State) : Keeps o s (countWait s) := by
  unfold countWait
  split
  · exact .ite (complete_keeps (.refl s) _ _) (.of_eq rfl)
  · exact .refl s

theorem syncStart_keeps (time : Nat) (s : State) : Keeps o s (syncStart time s) := by
  have referred : Keeps o s (changeSync (fun c => { c with reference := some time }) s) := .of_eq rfl
  have missing : ∀ (n : SyncCapture → Nat) u, Keeps o u (changeSync (fun c => { c with missing := n c }) u) := fun _ _ => .of_eq rfl
  exact .ite (referred.trans (.ite (missing _ _) ((missing _ _).trans (judge_keeps _ _)))) referred

theorem reportStart_keeps (x : Frame) (time : Nat) (s : State) : Keeps o s (reportStart x time s) := by
  have recent : Keeps o s { s with clips := { s.clips with recentStart := some x } } := .of_eq rfl
  have owed : ∀ u, Keeps o u (oweRewrite u) := fun _ => .of_eq rfl
  exact ((recent.trans (syncStart_keeps time _)).trans (owed _)).trans (countWait_keeps _)

theorem frameStart_keeps (time : Nat) (s : State) : Keeps o s (frameStart time s) := by
  unfold frameStart
  split
  · exact .refl s
  · exact settle_keeps (endUnmarked_keeps s)
  · exact settle_keeps (((endUnmarked_keeps s).trans (startFrame_keeps _)).trans (reportStart_keeps _ _ _))

theorem takeLine_keeps (pixels : List Pixel) (check : BitVec 16) (s : State) : Keeps o s (takeLine pixels check s) := by
  unfold takeLine
  split
  · exact .refl s
  · exact .refl s
  · split
    · exact .refl s
    · exact .of_eq (by simp [allParts, setupPart, tunePart, sizes, changeAt_eq_modify])

theorem frameEnd_keeps (s : State) : Keeps o s (frameEnd s) := by
  unfold frameEnd
  split
  · exact .refl s
  · exact .refl s
  · split
    · exact clearArrival_keeps s
    · exact .ite (settle_keeps (runCoders_keeps (endGood_keeps _ _ s)))
        (settle_keeps (runCoders_keeps (endMalformed_keeps _ _ s)))

theorem intakeDrained_keeps (s : State) : Keeps o s (intakeDrained s) :=
  .ite (settle_keeps (.ite (complete_keeps (goStopped_keeps s) _ _) (goStopped_keeps s))) (.refl s)

theorem completeMaster_keeps (p : MasterPicture) (size tag : Nat) (s : State) :
    Keeps o s (completeMaster p size tag s) := by
  have idle : ∀ u : State, Keeps o u { u with master := { u.master with picture := none } } := fun _ => .of_eq rfl
  exact ((coderWork_keeps ((join_coders _ s).trans (releaseSlot_work p.item.slot _))).trans (idle _)).trans
    (coderWork_keeps (runMaster_work _ _))

theorem endAttempt_keeps (payload : Nat) (s : State) : Keeps o s (endAttempt payload s) := by
  have tagged : Keeps o s { s with freeTag := s.freeTag + 1 } := .of_eq rfl
  unfold endAttempt
  split
  · exact .refl s
  · refine .ite ?_ (tagged.trans (completeMaster_keeps _ _ _ _))
    split
    · exact .of_eq rfl
    · exact tagged.trans (completeMaster_keeps _ _ _ _)

theorem afterCompletion_inputs (n : Nat) (g : Governor) : (afterCompletion n g).inputs = g.inputs := by
  have charged : ∀ h : Governor, (charge n h).inputs = h.inputs := fun h => by
    unfold charge
    split <;> rfl
  unfold afterCompletion
  dsimp only
  split
  · rfl
  all_goals exact charged _

theorem endProxyCoding_keeps (payload : Nat) (s : State) : Keeps o s (endProxyCoding payload s) := by
  unfold endProxyCoding
  split
  · exact .refl s
  · next p _ =>
    have charged : ∀ n, Keeps o s { s with
        freeTag := s.freeTag + 1, governor := afterCompletion n s.governor } := fun n => .of_eq (by
      simp [allParts, setupPart, tunePart, sizes, afterCompletion_inputs])
    have idle : ∀ u : State, Keeps o u { u with proxy := { u.proxy with picture := none } } := fun _ => .of_eq rfl
    exact (((charged _).trans (coderWork_keeps ((join_coders _ _).trans (releaseSlot_work p.item.slot _)))).trans
      (idle _)).trans (coderWork_keeps (runProxy_work _ _))

theorem resumeLoad_keeps {s t : State} (h : Keeps o s t) (n : Nat) : Keeps o s (resumeLoad n t) := by
  unfold resumeLoad
  split
  · exact h
  · exact .ite (h.trans (followedBy_keeps (requestSource_followedBy _ _ t))) h

theorem activityReady_keeps (s : State) : Keeps o s (activityReady s) := by
  unfold activityReady
  split
  · exact .refl s
  · refine settle_keeps (resumeLoad_keeps ?_ 0)
    exact .of_eq rfl

theorem curveReady_keeps (s : State) : Keeps o s (curveReady s) := by
  unfold curveReady
  split
  · exact .refl s
  · refine settle_keeps (resumeLoad_keeps ?_ 1)
    exact .of_eq rfl

/-! ## Every command -/

/-- The owner that a command belongs to. -/
def ownerOf : Instr → Owner
  | .setup => .setup
  | .tune => .tune
  | .lines => .lines
  | .noticeMask _ => .mask
  | .freeze _ => .freeze
  | _ => .nobody

/-- Every command but FULL_RESET keeps the shape and all settings but its owner's. -/
theorem exec_keeps {c : Instr} {s t : State} (h : exec c s = .next t) (full : c ≠ .fullReset) :
    Keeps (ownerOf c) s t := by
  cases c with
  | fullReset => exact absurd rfl full
  | frameStart time => cases h; exact frameStart_keeps time s
  | line pixels check => cases h; exact takeLine_keeps pixels check s
  | frameEnd => cases h; exact frameEnd_keeps s
  | attemptEnd payload => cases h; exact settle_keeps (endAttempt_keeps payload s)
  | activityTableInitEnd => cases h; exact activityReady_keeps s
  | lookCurveInitEnd => cases h; exact curveReady_keeps s
  | proxyCodingEnd payload => cases h; exact settle_keeps (endProxyCoding_keeps payload s)
  | entry value => cases h; exact settle_keeps (takeEntry_keeps value s)
  | headerFetchDone bytes => cases h; exact answerOk_keeps (fun _ => headerArrived_keeps bytes) _ _ s
  | bodyFetchDone bytes => cases h; exact answerOk_keeps (fun _ => bodyArrived_keeps _ bytes) _ _ s
  | setup => cases h; exact takeDirective_keeps setupDirective_keeps _ s
  | tune => cases h; exact takeDirective_keeps tuneDirective_keeps _ s
  | lines => cases h; exact takeDirective_keeps linesDirective_keeps _ s
  | loadTable => cases h; exact takeDirective_keeps loadDirective_keeps _ s
  | grant => cases h; exact takeDirective_keeps grantDirective_keeps _ s
  | relinquish => cases h; exact takeDirective_keeps relinquishDirective_keeps _ s
  | startIntake => cases h; exact takeDirective_keeps startDirective_keeps _ s
  | stopIntake => cases h; exact takeDirective_keeps stopDirective_keeps _ s
  | intakeDrained => cases h; exact intakeDrained_keeps s
  | roll source => cases h; exact takeRoll_keeps source s
  | cut source => cases h; exact takeCut_keeps source s
  | mark source => cases h; exact takeMarkFrom_keeps source s
  | setTimecode => cases h; exact takeDirective_keeps timecodeDirective_keeps _ s
  | wait => cases h; exact takeDirective_keeps waitDirective_keeps _ s
  | tableSourceReadDone bytes => cases h; exact answerOk_keeps (fun _ => sourceArrived_keeps _ bytes) _ _ s
  | outcomeWriteDone => cases h; exact answerOk_keeps (fun _ => outcomeWritten_keeps) _ _ s
  | refusedSlotWriteDone => cases h; exact answerOk_keeps (fun _ => refusedSlotWritten_keeps) _ _ s
  | walkerReturnedCountDone => cases h; exact answerOk_keeps (fun _ => returnedCountWritten_keeps) _ _ s
  | halt => cases h; exact takeHalt_keeps s
  | resume => cases h; exact takeResume_keeps s
  | stop => cases h; exact takeStop_keeps s
  | freeze level => cases h; exact takeFreeze_keeps level s
  | engineReset => cases h; exact engineReset_keeps s
  | engineResetComplete => cases h; exact engineResetComplete_keeps s
  | notice value => cases h; exact writeNotice_keeps value s
  | noticeMask value => cases h; exact writeMask_keeps value s
  | ignoredRegisterWrite offset value => cases h; exact .refl s
  | pageRewriteDone => cases h; exact answerOk_keeps (fun _ u => .refl u) _ _ s
  | writerBurstDone => cases h; exact writerBurstDone_keeps s
  | gapTimerExpiry stream => cases h; exact gapExpired_keeps stream s
  | resultSlotBurstDone => cases h; exact answerOk_keeps (fun _ => resultSlotWritten_keeps) _ _ s
  | resultCountBurstDone => cases h; exact answerOk_keeps (fun _ => segmentReturned_keeps) _ _ s
  | burstRetry => cases h; exact answerRetry_keeps s
  | burstError => cases h; exact answerError_keeps s
  | rawLevelChange n drive time => cases h; exact rawChange_keeps n drive time s
  | filterTimerExpiry n time => cases h; exact filterExpired_keeps n time s
  | toggle n => cases h; exact takeToggle_keeps n s
  | blinkTimerExpiry => cases h; exact blinkExpired_keeps s

theorem fullReset_shaped {s : State} (h : Shaped s) : Shaped (fullReset s) :=
  ⟨List.length_replicate, List.length_replicate, by simp [fullReset, h.lines], h.memory⟩

/-! ## The statements -/

/-- Settles O5: every command but FULL_RESET keeps the shape with the settings, and FULL_RESET gives it anew. -/
theorem stepKeepsShape : Obligations.StepKeepsShape := by
  intro s t shaped h
  unfold step at h
  split at h
  · cases h
    exact shaped
  · next c rest _ =>
    have front : Shaped { s with pending := rest } := ⟨shaped.slots, shaped.clips, shaped.lines, shaped.memory⟩
    by_cases full : c = .fullReset
    · subst full
      cases h
      exact fullReset_shaped front
    · exact (exec_keeps h full).shape front

/-- Settles O14: a setting's owner is the owner of its one command. -/
theorem settingsOnlyByOwners : Obligations.SettingsOnlyByOwners := by
  intro c s t h full
  have keeps := exec_keeps h full
  refine ⟨fun n => ?_, fun n => ?_, fun n => keeps.lines ?_, fun n => keeps.mask ?_, fun n => keeps.freeze ?_⟩
  · have part := keeps.setup (by cases c <;> simp_all [ownerOf])
    simpa [setupPart] using part
  · have part := keeps.tune (by cases c <;> simp_all [ownerOf])
    simpa [tunePart, and_assoc] using part
  all_goals cases c <;> simp_all [ownerOf]

/-- Settles O3: FULL_RESET gives the state after full reset, but for what stays; its values are the manual's. -/
theorem fullResetRestores : Obligations.FullResetRestores := by
  refine ⟨fun s => ⟨fullReset s, rfl, rfl, rfl, rfl, rfl, rfl, rfl, rfl, rfl, rfl, rfl, rfl, rfl, rfl, rfl, rfl,
    rfl, rfl, rfl, rfl⟩, ?_⟩
  have writers : ∀ st, State.reset.writer st = Writer.reset := fun st => by cases st <;> rfl
  have lines : ∀ l ∈ State.reset.lines.lines, l = Line.reset none := fun l h => List.eq_of_mem_replicate h
  refine ⟨by decide, by decide, by decide, by decide, by decide, by decide, by decide, fun st => ?_, by decide, by decide,
    fun l h => ?_, by decide, by decide⟩
  · rw [writers st]
    decide
  · rw [lines l h]
    decide

/-- Settles O4: the state after full reset holds no clip, entry, segment or burst, and its tables and governor have
the values of R30, R46 and R51. -/
theorem resetMeetsInvariants : Obligations.ResetMeetsInvariants := by
  have writers : ∀ st, State.reset.writer st = Writer.reset := fun st => by cases st <;> rfl
  refine ⟨by constructor <;> decide, by constructor <;> decide, ?_, ?_, ?_, ?_, ?_, ?_⟩
  · exact ⟨(fun h => nomatch h), fun _ => rfl, (fun _ h => nomatch h), fun _ _ h => nomatch h⟩
  · exact ⟨by decide, by decide, by decide, by decide, (fun _ h => nomatch h), fun _ => by decide, by decide, by decide,
      fun _ => by decide⟩
  · exact ⟨rfl, (fun _ h => nomatch h), by decide⟩
  · exact ⟨rfl, (fun _ h => nomatch h), by decide, by decide, by decide, (fun _ h => nomatch h), by decide,
      fun h => absurd rfl h, fun h => nomatch h⟩
  · exact ⟨by decide, fun st => by rw [writers st]; decide, fun st => by rw [writers st]; simp [State.reset, PageWriter.reset, Writer.reset],
      fun st => by simp [State.reset, PageWriter.reset]⟩
  · exact ⟨(fun _ h => nomatch h), fun _ r => by cases r <;> rfl⟩

end Sys2Proof.Proofs
end

section
/-! SUPPORT. The directives that reach Picture Intake: SETUP, START_INTAKE, STOP_INTAKE and SET_TIMECODE. -/

namespace Sys2Proof.Proofs

open Sys2Proof.Machine Sys2Proof.Laws

/-! ## Commands that settle -/

/-- A command that settles in a calm state ends in what follows from that state. -/
theorem follows_of_settle {c : Instr} {s u : State} (h : exec c s = .next (settle u)) (calm : Calm u) :
    ∃ t, exec c s = .next t ∧ Follows u t := ⟨settle u, h, settle_follows u calm⟩

/-- A directive in hand is taken by its owner and answered. -/
theorem follows_answer {c : Instr} {kind : DirectiveKind} {act : Block → State → State} {s u : State} {b : Block}
    {v : Verdict} {detail : Nat} (calm : Calm s) (hand : InHand kind b s)
    (command : exec c s = .next (takeDirective kind act s)) (acts : act b s = complete v detail u)
    (walker : u.walker = s.walker) (writers : u.writers = s.writers) :
    ∃ t, exec c s = .next t ∧ Follows (answered v detail b u) t := by
  obtain ⟨master, proxy, -, -⟩ := calm
  have block : u.walker.block = some b := by rw [walker]; exact hand.1
  refine follows_of_settle ?_ (calm_answered v detail b (by simpa [State.writer, writers] using master)
    (by simpa [State.writer, writers] using proxy))
  rw [command, takeDirective_eq act hand, acts, complete_eq v detail block]

/-! ## SET_TIMECODE -/

theorem labelFits_iff (r : Rate) (b : Block) : labelFits r b.labelField = true ↔
    b.u8 32 ≤ 23 ∧ b.u8 33 ≤ 59 ∧ b.u8 34 ≤ 59 ∧ b.u8 35 < r.base ∧ (b.u8 36 = 0 ∨ r.skip ≠ 0) := by
  rw [labelFits, Bool.and_eq_true, decide_eq_true_eq]
  simp [Block.labelField, and_assoc]

theorem isSkipped_iff (r : Rate) (l : Label) : isSkipped r l = true ↔
    l.drop = true ∧ l.frames < r.skip ∧ l.seconds = 0 ∧ l.minutes % 10 ≠ 0 := by
  simp [isSkipped, and_assoc]

theorem isSkipped_field (r : Rate) (b : Block) : isSkipped r b.labelField = true ↔
    b.u8 36 ≠ 0 ∧ b.u8 35 < r.skip ∧ b.u8 34 = 0 ∧ b.u8 33 % 10 ≠ 0 := by
  simp [isSkipped_iff, Block.labelField]

/-- Settles O56, by the cases of R18 in order. -/
theorem timecodeSet : Obligations.TimecodeSet := by
  intro s b calm hand
  have answer := fun {v : Verdict} {detail : Nat} {u : State} => follows_answer (v := v) (detail := detail) (u := u)
    (c := .setTimecode) calm hand rfl
  refine ⟨fun absent => answer ?_ rfl rfl, fun g present => ?_⟩
  · simp [timecodeDirective, State.rate?, absent]
  have rate : s.rate? = some (rateOf g.code) := by simp [State.rate?, present]
  refine ⟨fun ranged => answer ?_ rfl rfl, fun ranged skipped => answer ?_ rfl rfl,
    fun ranged skipped => answer ?_ rfl rfl⟩
  all_goals rw [← labelFits_iff] at ranged
  · simp [timecodeDirective, rate, ranged]
  · rw [← isSkipped_field] at skipped
    simp only [timecodeDirective, rate, ranged, skipped, raiseSkipped, if_true]
    rfl
  · rw [← isSkipped_field] at skipped
    simp only [timecodeDirective, rate, ranged, if_true, if_neg skipped]
    rfl

/-! ## Discarding held entries -/

/-- A queue's entries are replaced with no notice where the flag that R91 gives is set already. -/
theorem putQueue_quiet {st : Stream} {es : List Entry} {s : State}
    (h : markBytes st s.queue.highMark ≤ bytesInUse es → (s.queue.queues.get st).aboveMark = true) :
    putQueue st es s = { s with queue := { s.queue with
      queues := s.queue.queues.set ⟨es, decide (markBytes st s.queue.highMark ≤ bytesInUse es)⟩ st } } := by
  unfold putQueue
  by_cases above : markBytes st s.queue.highMark ≤ bytesInUse es
  · simp [above, h above, raiseIf]
  · simp [above, raiseIf]

theorem bytesInUse_filter_le (p : Entry → Bool) (es : List Entry) : bytesInUse (es.filter p) ≤ bytesInUse es :=
  ((List.filter_sublist (p := p) (l := es)).map Entry.size).sum_le_sum (fun _ _ => Nat.zero_le _)

/-- Discarding held entries raises no notice: the bytes in use only go down. -/
theorem discardHeld_eq {s : State} (sound : MarksSound s) : discardHeld s = withoutHeld s := by
  have kept : ∀ st, ((s.entries st).filter fun e => !e.isHeld) = (s.entries st).filter fun e => e.clip.isSome := fun st =>
    List.filter_congr fun e _ => by simp [Entry.isHeld]
  have quiet : ∀ st, markBytes st s.queue.highMark ≤ bytesInUse ((s.entries st).filter fun e => e.clip.isSome) →
      (s.queue.queues.get st).aboveMark = true := fun st h =>
    sound st ((by cases st <;> exact h : areaOf st * s.queue.highMark / 100 ≤ _).trans (bytesInUse_filter_le _ _))
  unfold discardHeld
  simp only [kept]
  rw [putQueue_quiet (st := .master) (s := { s with
    queue := { s.queue with agingLine := s.intake.counter }, clips := { s.clips with held := [] } }) (quiet .master),
    putQueue_quiet]
  · rfl
  · exact quiet .proxy

/-! ## START_INTAKE and STOP_INTAKE -/

theorem isDrained_iff (s : State) : s.isDrained = true ↔
    s.intake.arrival = none ∧ (∀ x ∈ s.slots, x.state = .free) ∧ s.inputs = ⟨[], []⟩
      ∧ s.master.picture = none ∧ s.proxy.picture = none := by
  have lists : s.inputs = ⟨[], []⟩ ↔ s.inputs.master = [] ∧ s.inputs.proxy = [] := by
    cases s.inputs
    simp
  simp [State.isDrained, lists, and_assoc]

/-- Settles O55, by the intake state that each command finds. -/
theorem intakeStartsStops : Obligations.IntakeStartsStops := by
  intro s b calm
  have answer := fun {c : Instr} {kind : DirectiveKind} {act : Block → State → State} {v : Verdict} {detail : Nat}
    {u : State} => follows_answer (c := c) (kind := kind) (act := act) (b := b) (v := v) (detail := detail) (u := u) calm
  refine ⟨fun hand => ⟨fun running => ?_, fun stopped absent => ?_, fun stopped present sound => ?_⟩,
    fun hand => ⟨fun stopped => ?_, fun running records => ?_, fun running idle drained => ?_,
      fun running idle busy still => ?_, fun running idle busy stopping => ?_⟩, fun flies stopping drained => ?_⟩
  · exact answer hand rfl (by simp [startDirective, running]) rfl rfl
  · exact answer hand rfl (by simp [startDirective, stopped, absent]) rfl rfl
  · refine answer hand rfl ?_ rfl rfl
    have discarded := discardHeld_eq (s := { s with
      intake := { s.intake with state := .running }, governor := startCredit s.governor }) sound
    simp only [startDirective, stopped, Option.isSome_iff_ne_none.mpr present, if_true, startIntake, discarded]
    rfl
  · exact answer hand rfl (by simp [stopDirective, stopped]) rfl rfl
  · exact answer hand rfl (by simp [stopDirective, running, Option.isSome_iff_ne_none.mpr records]) rfl rfl
  · rw [← isDrained_iff] at drained
    refine answer hand rfl ?_ rfl rfl
    simp only [stopDirective, running, idle, Option.isSome_none, Bool.false_eq_true, if_false, stopIntake, drained, if_true]
    rfl
  · rw [← isDrained_iff] at busy
    refine follows_of_settle (u := inFlight .stopIntake b { s with intake := { s.intake with state := .stopping } }) ?_
      ⟨calm.1, calm.2.1, by simp [inFlight], by simp [State.flight, inFlight]⟩
    have acts : stopDirective b s = goInFlight .stopIntake { s with intake := { s.intake with state := .stopping } } := by
      simp [stopDirective, running, idle, stopIntake, busy, still]
    show Host.Outcome.next (takeDirective .stopIntake stopDirective s) = _
    rw [takeDirective_eq _ hand, acts]
    exact congrArg (fun u => Host.Outcome.next (settle u)) (goInFlight_eq .stopIntake hand.1)
  · rw [← isDrained_iff] at busy
    exact answer hand rfl (by simp [stopDirective, running, idle, stopIntake, busy, stopping]) rfl rfl
  · rw [← isDrained_iff] at drained
    refine follows_of_settle ?_ (calm_answered .done 0 b calm.1 calm.2.1)
    have flight : (goStopped s).flight = some .stopIntake := flight_eq flies
    show Host.Outcome.next (intakeDrained s) = _
    simp only [intakeDrained, stopping, drained, and_self, if_true, flight]
    exact congrArg (fun u => Host.Outcome.next (settle u)) (complete_eq (s := goStopped s) .done 0 flies.1)

/-! ## SETUP -/

/-- The size and the factor that R3 allows, checks 2 to 4. -/
def Sized (f : SetupFields) : Prop :=
  (f.width % 32 = 0 ∧ 1280 ≤ f.width ∧ f.width ≤ 4096) ∧ (f.height % 8 = 0 ∧ 720 ≤ f.height ∧ f.height ≤ 2176)
    ∧ (2 ≤ f.factor ∧ f.factor ≤ 4) ∧ (f.width % f.factor = 0 ∧ f.width / f.factor % 16 = 0)
    ∧ (f.height % f.factor = 0 ∧ f.height / f.factor % 4 = 0)

theorem sized_iff (f : SetupFields) : Sized f ↔ sizeFits f = true ∧ factorFits f = true := by
  simp [Sized, sizeFits, factorFits, and_assoc]

theorem rateOf_le (c : Fin 12) : 4096 * 2176 * (rateOf c).num ≤ 1100000000 * (rateOf c).den := by
  revert c
  decide

/-- Check 6 of R3 never fails: the largest picture is within the limit at every rate. -/
theorem throughput_of_sized {f : SetupFields} (h : Sized f) (c : Fin 12) :
    f.width * f.height * (rateOf c).num ≤ 1100000000 * (rateOf c).den := by
  obtain ⟨⟨-, -, width⟩, ⟨-, -, height⟩, -⟩ := h
  exact (Nat.mul_le_mul_right _ (Nat.mul_le_mul width height)).trans (rateOf_le c)

theorem setupChecked_busy {f : SetupFields} {s : State} (h : s.intake.state ≠ .stopped) :
    setupChecked f s = .error .busy := by simp [setupChecked, h]

section
variable {f : SetupFields} {s : State} (stopped : s.intake.state = .stopped)
include stopped

theorem setupChecked_geometry (h : ¬ Sized f) : setupChecked f s = .error .geometry := by
  rw [sized_iff] at h
  by_cases size : sizeFits f = true
  · have factor : factorFits f = false := by simpa using fun factor => h ⟨size, factor⟩
    simp [setupChecked, stopped, size, factor]
  · simp [setupChecked, stopped, size]

theorem setupChecked_rate (h : Sized f) (code : 12 ≤ f.code) : setupChecked f s = .error .rate := by
  obtain ⟨size, factor⟩ := (sized_iff f).mp h
  simp [setupChecked, stopped, size, factor, Nat.not_lt.mpr code]

section
variable (h : Sized f) {c : Fin 12} (code : f.code = c)
include h code

/-- A SETUP of an allowed size and rate with a bad filter code (R40). -/
theorem setupChecked_filter (none : filterOfCode f.filter = none) : setupChecked f s = .error .geometry := by
  obtain ⟨size, factor⟩ := (sized_iff f).mp h
  have lt : f.code < 12 := code ▸ c.isLt
  have same : (⟨f.code, lt⟩ : Fin 12) = c := Fin.ext code
  have fits : throughputFits f (rateOf c) = true := decide_eq_true (throughput_of_sized h c)
  simp [setupChecked, stopped, size, factor, lt, same, fits, none]

/-- A SETUP of an allowed size, rate and filter is decided by its page address (R183). -/
theorem setupChecked_page {filter : Filter} (some : filterOfCode f.filter = some filter) :
    setupChecked f s = if pageAddressFits f.page then .ok (⟨f.width, f.height, f.factor, c⟩, filter)
      else .error .range := by
  obtain ⟨size, factor⟩ := (sized_iff f).mp h
  have lt : f.code < 12 := code ▸ c.isLt
  have same : (⟨f.code, lt⟩ : Fin 12) = c := Fin.ext code
  have fits : throughputFits f (rateOf c) = true := decide_eq_true (throughput_of_sized h c)
  simp [setupChecked, stopped, size, factor, lt, same, fits, some]

end

end

theorem filterOfCode_le {n : Nat} (h : n ≤ 1) : filterOfCode n = some (if n = 0 then .short else .long) := by
  interval_cases n <;> rfl

theorem filterOfCode_ge {n : Nat} (h : 2 ≤ n) : filterOfCode n = none := by
  unfold filterOfCode
  split
  · omega
  · omega
  · rfl

theorem pageAddressFits_iff (a : Nat) : pageAddressFits a = true ↔ a ≠ 0 ∧ a < 2 ^ 48 ∧ a % 256 = 0 := by
  simp [pageAddressFits, and_assoc]

/-- The label made legal under a rate (R4), field by field. -/
theorem legalLabel_eq (r : Rate) (l : Label) :
    let drop := l.drop && r.skip != 0
    let frames := if r.base ≤ l.frames then 0 else l.frames
    legalLabel r l = { l with
      drop := drop
      frames := if drop = true ∧ frames < r.skip ∧ l.seconds = 0 ∧ l.minutes % 10 ≠ 0 then r.skip else frames } := by
  have skipped : ∀ k : Label, raiseSkipped r k = { k with
      frames := if k.drop = true ∧ k.frames < r.skip ∧ k.seconds = 0 ∧ k.minutes % 10 ≠ 0
        then r.skip else k.frames } := fun k => by
    rw [raiseSkipped]
    simp only [isSkipped_iff]
    split <;> rfl
  dsimp only [legalLabel]
  rw [skipped]
  by_cases base : r.base ≤ l.frames <;> simp [base]

theorem setupTaken_eq {s : State} (sound : MarksSound s) (g : Geometry) (filter : Filter) (a : Nat) :
    setupTaken g filter a s = floorAtNext (withoutHeld
      { s with
        intake := { s.intake with geometry := some g, timecode := legalLabel (rateOf g.code) s.intake.timecode }
        proxy := { s.proxy with filter := filter }
        page := { s.page with address := some a }
        governor := governorSetup (rateOf g.code) s.governor
        queue := { s.queue with limit := prerollLimit (some (rateOf g.code)) s.queue.depth } }) :=
  congrArg floorAtNext (discardHeld_eq sound)

/-- Settles O49, by the checks of R3, R40 and R183 in order. -/
theorem setupDecides : Obligations.SetupDecides := by
  intro s b c calm hand
  have answer := fun {v : Verdict} {detail : Nat} {u : State} => follows_answer (v := v) (detail := detail) (u := u)
    (c := .setup) calm hand rfl
  have refused : ∀ {v}, setupChecked b.setupFields s = .error v →
      ∃ t, exec .setup s = .next t ∧ Follows (answered v 0 b s) t := fun h =>
    answer (by simp [setupDirective, h]) rfl rfl
  refine ⟨fun busy => refused (setupChecked_busy busy), fun stopped small => refused (setupChecked_geometry stopped small),
    fun stopped sized code => refused (setupChecked_rate stopped sized code),
    fun sized => throughput_of_sized (f := b.setupFields) sized c, fun stopped sized code filter => refused ?_,
    fun stopped sized code filter placed => refused ?_, fun stopped sized code filter placed sound => answer ?_ rfl rfl⟩
  · exact setupChecked_filter stopped sized (c := c) code (filterOfCode_ge (n := b.setupFields.filter) filter)
  · rw [← pageAddressFits_iff] at placed
    rw [setupChecked_page (f := b.setupFields) stopped sized (c := c) code (filterOfCode_le (n := b.setupFields.filter) filter)]
    exact if_neg placed
  · rw [← pageAddressFits_iff] at placed
    have checked : setupChecked b.setupFields s = .ok (⟨b.field 32 2, b.field 34 2, b.u8 36, c⟩,
        if b.u8 38 = 0 then .short else .long) := by
      rw [setupChecked_page (f := b.setupFields) stopped sized (c := c) code
        (filterOfCode_le (n := b.setupFields.filter) filter)]
      exact if_pos placed
    simp only [setupDirective, checked, setupTaken_eq sound, legalLabel_eq]
    rfl

end Sys2Proof.Proofs
end

section
/-! SUPPORT. Picture Intake: lines, frame starts and frame ends (chapter 1). -/

namespace Sys2Proof.Proofs

open Sys2Proof.Machine Sys2Proof.Laws

/-! ## The lowest FREE slot -/

theorem firstIndex_eq_some {α : Type} {p : α → Bool} {l : List α} {i : Nat} {x : α} (h : l[i]? = some x)
    (holds : p x = true) (before : ∀ y ∈ l.take i, p y = false) : firstIndex p l = some i := by
  induction l generalizing i with
  | nil => simp at h
  | cons a rest ih =>
    cases i with
    | zero =>
      obtain rfl : a = x := by simpa using h
      simp [firstIndex, holds]
    | succ i =>
      have first : p a = false := before a (by simp)
      simp [firstIndex, first, ih (by simpa using h) fun y m => before y (by simp [m])]

theorem firstIndex_eq_none {α : Type} {p : α → Bool} {l : List α} (h : ∀ x ∈ l, p x = false) :
    firstIndex p l = none := by
  induction l with
  | nil => rfl
  | cons a rest ih => simp [firstIndex, h a (by simp), ih fun x m => h x (by simp [m])]

theorem firstIndex_isSome {α : Type} {p : α → Bool} {l : List α} {x : α} (m : x ∈ l) (holds : p x = true) :
    (firstIndex p l).isSome = true := by
  induction l with
  | nil => simp at m
  | cons a rest ih =>
    rw [firstIndex]
    split
    · rfl
    · next no =>
      rcases List.mem_cons.mp m with rfl | m
      · exact absurd holds no
      · simpa using ih m

/-! ## Lines -/

/-- The check sum's two ways to be wrong are one (R1). -/
theorem checkSum_bne (pixels : List Pixel) (check : BitVec 16) : (checkSum pixels != check)
    = decide ((pixels.map fun p => p.luma.toNat + p.chroma.toNat).sum % 65536 ≠ check.toNat) := by
  rw [Bool.eq_iff_iff]
  simp [checkSum, ← BitVec.toNat_inj]

/-- Settles O18. -/
theorem lineTaken : Obligations.LineTaken := by
  refine ⟨fun s pixels check a i g going arrival slot geometry => ?_, fun s pixels check a arrival slot => ?_,
    fun s c link discards => ?_⟩
  · show Host.Outcome.next (takeLine pixels check s) = _
    have fills : slotFilled g pixels a = fun x =>
        { x with lines := if a.lines < g.height then x.lines ++ [pixels.take g.width] else x.lines } := by
      funext x
      unfold slotFilled
      split <;> rfl
    have misfit : (pixels.length != g.width) = decide (pixels.length ≠ g.width) := by simp [bne, beq_eq_decide]
    simp only [takeLine, arrival, slot, State.pictureGeometry, geometry, Option.getD_some, changeAt_eq_modify, fills,
      Machine.lineTaken, checkSum_bne, misfit]
  · show Host.Outcome.next (takeLine pixels check s) = _
    unfold takeLine
    simp only [arrival]
    split <;> simp_all
  · rcases link with ⟨time, rfl⟩ | ⟨pixels, check, rfl⟩ | rfl
    · obtain stopped | ⟨-, other⟩ := discards
      · show Host.Outcome.next (frameStart time s) = _
        simp [frameStart, stopped]
      · exact absurd rfl (other time)
    · show Host.Outcome.next (takeLine pixels check s) = _
      obtain stopped | ⟨empty, -⟩ := discards
      · simp [takeLine, stopped]
      · unfold takeLine
        split <;> simp_all
    · show Host.Outcome.next (frameEnd s) = _
      obtain stopped | ⟨empty, -⟩ := discards
      · simp [frameEnd, stopped]
      · unfold frameEnd
        split <;> simp_all

/-! ## What a frame start does -/

/-- Coders that are both CODING take nothing from their lists. -/
theorem runCoders_coding {s : State} (master : s.master.picture.isSome = true)
    (proxy : s.proxy.picture.isSome = true) : runCoders s = s := by
  simp [runCoders, runMaster, runProxy, master, proxy]

theorem clearArrival_of_none {s : State} (h : s.intake.arrival = none) : clearArrival s = s := by
  unfold clearArrival
  rw [← h]

/-- A frame still in arrival that is lost only ends (R13). -/
theorem endUnmarked_lost {s : State} (h : ∀ a, s.intake.arrival = some a → a.slot = none) :
    endUnmarked s = clearArrival s := by
  unfold endUnmarked
  split
  · next none => exact (clearArrival_of_none none).symm
  · next a some => simp [h a some]

theorem countWait_none {s : State} (h : ∀ n, s.flight ≠ some (.frames n)) : countWait s = s := by
  unfold countWait
  split
  · next n e => exact absurd e (h n)
  · rfl

theorem syncStart_none {s : State} (time : Nat) (h : ∀ l ∈ s.lines.lines, l.role ≠ .syncRef) :
    syncStart time s = { s with lines := { s.lines with sync := { s.lines.sync with reference := some time } } } := by
  have none : syncLine s.lines.lines = none := firstIndex_eq_none fun l m => by simpa using h l m
  simp [syncStart, none, changeSync]

/-- A frame start is reported with no SYNC_REF line and no WAIT for frames in flight (R9). -/
theorem reportStart_eq {s : State} (x : Frame) (time : Nat) (lines : ∀ l ∈ s.lines.lines, l.role ≠ .syncRef)
    (flight : ∀ n, s.flight ≠ some (.frames n)) :
    reportStart x time s = { s with
      clips := { s.clips with recentStart := some x }
      lines := { s.lines with sync := { s.lines.sync with reference := some time } }
      page := { s.page with owed := s.page.owed || s.page.address.isSome } } := by
  unfold reportStart
  dsimp only
  rw [syncStart_none (s := { s with clips := { s.clips with recentStart := some x } }) time lines, countWait_none]
  · rfl
  · exact flight

theorem frameStart_running {s : State} (time : Nat) (running : s.intake.state = .running) :
    exec (.frameStart time) s = .next (settle (reportStart (endUnmarked s).intake.counter time
      (startFrame (endUnmarked s)))) := by
  show Host.Outcome.next (frameStart time s) = _
  simp [frameStart, running]

/-- Settles O15. -/
theorem frameStartClaims : Obligations.FrameStartClaims := by
  intro s time i x calm running lost slot free before lines flight
  have claimed : s.freeSlot = some i := firstIndex_eq_some slot (by simp [free]) fun y m => by simpa using before y m
  refine follows_of_settle ?_ (u := _) ?_
  · rw [frameStart_running time running, endUnmarked_lost lost]
    have started : startFrame (clearArrival s) = putSlot i ⟨.filling, 0, []⟩
        { s with intake := { s.intake with
          counter := s.intake.counter + 1
          timecode := nextLabel s.rate s.intake.timecode
          arrival := some ⟨s.intake.counter, s.intake.timecode, s.lines.sync.state == .lost, s.lines.sync.lastPhase,
            some i, 0, false⟩ } } := by
      have slot : (clearArrival s).freeSlot = some i := claimed
      simp only [startFrame, newArrival, slot]
      rfl
    rw [started, reportStart_eq]
    · simp only [putSlot, changeAt_const]
      rfl
    · exact lines
    · exact flight
  · exact calm

/-! ## Frames that end malformed -/

theorem reportFault_raise_pending (f : FaultReport) (n m : Notice) (s : State) :
    (reportFault f (raise n s)).isPending m = (s.isPending m || decide (m = n) || decide (m = .fault)) := by
  rw [isPending_reportFault, isPending_raise]

/-- What ending a frame malformed leaves, in one update (R12, R14). -/
theorem endMalformed_eq (a : Arrival) (i : Nat) (s : State) : endMalformed a i s
    = reportFault ⟨.frameMalformed, .pictureIntake, none, some a.frame, none⟩ (raise .intake
      { s with
        intake := { s.intake with arrival := none, malformed := min (s.intake.malformed + 1) (2 ^ 32 - 1) }
        slots := s.slots.modify i fun _ => ⟨.free, 0, []⟩
        inputs := ⟨recordGapIn a.frame a.label s.inputs.master, recordGapIn a.frame a.label s.inputs.proxy⟩ }) := by
  simp only [endMalformed, putSlot, changeAt_eq_modify]
  rfl

theorem syncStart_followed (time : Nat) (s : State) :
    (syncStart time s).intake = s.intake ∧ ∀ n, s.isPending n = true → (syncStart time s).isPending n = true := by
  have judged : ∀ r u, (judge r u).intake = u.intake ∧ ∀ n, u.isPending n = true → (judge r u).isPending n = true :=
    fun r u => ⟨(congrArg State.intake (raiseIf_work _ .sync (changeSync _ u)).besides :),
      fun n p => (raiseIf_work _ .sync (changeSync _ u)).raises n p⟩
  unfold syncStart
  dsimp only
  split
  · unfold countMissing
    split
    · exact ⟨rfl, fun _ => id⟩
    · exact judged _ _
  · exact ⟨rfl, fun _ => id⟩

theorem countWait_followedBy (s : State) : FollowedBy s (countWait s) := by
  unfold countWait
  split
  · split
    · exact complete_followedBy _ _ s
    · exact putStage_followedBy _ s
  · exact followedBy_refl s

/-- Reporting a frame start changes nothing of Picture Intake and clears no notice. -/
theorem reportStart_intake (x : Frame) (time : Nat) (s : State) :
    (reportStart x time s).intake = s.intake ∧ ∀ n, s.isPending n = true → (reportStart x time s).isPending n = true := by
  obtain ⟨intake, raises⟩ := syncStart_followed time { s with clips := { s.clips with recentStart := some x } }
  have waits := countWait_followedBy (oweRewrite (syncStart time
    { s with clips := { s.clips with recentStart := some x } }))
  exact ⟨waits.intake.intake.trans intake, fun n p => (waits.raises n).1 (raises n p)⟩

theorem loseFrame_intake (a : Arrival) (s : State) :
    (loseFrame a s).intake = { s.intake with lost := countUp countMax s.intake.lost 1 } := rfl

theorem loseFrame_raises (a : Arrival) (s : State) (n : Notice) (h : s.isPending n = true) :
    (loseFrame a s).isPending n = true :=
  ((raise_work .intake { s with intake := { s.intake with lost := countUp countMax s.intake.lost 1 } }).trans
    (reportFault_work ⟨.frameLost, .pictureIntake, none, some a.frame, none⟩ _)).raises n h

/-- Starting a frame advances both counters and makes the arrival, lost only where no slot is FREE (R9, R10,
R17). -/
theorem startFrame_intake (s : State) :
    (startFrame s).intake = { s.intake with
      counter := s.intake.counter + 1
      timecode := nextLabel s.rate s.intake.timecode
      arrival := some (newArrival s)
      lost := if s.freeSlot.isSome then s.intake.lost else countUp countMax s.intake.lost 1 }
    ∧ ∀ n, s.isPending n = true → (startFrame s).isPending n = true := by
  unfold startFrame
  dsimp only
  split
  · next i free =>
    have free : s.freeSlot = some i := free
    rw [free]
    exact ⟨rfl, fun _ => id⟩
  · next free =>
    have free : s.freeSlot = none := free
    rw [free, (runCoders_work _).intake, loseFrame_intake]
    exact ⟨rfl, fun n p => (runCoders_work _).raises n (loseFrame_raises _ _ n p)⟩

theorem endUnmarked_intake (s : State) : (endUnmarked s).intake.state = s.intake.state
    ∧ (endUnmarked s).intake.geometry = s.intake.geometry ∧ (endUnmarked s).intake.counter = s.intake.counter
    ∧ (endUnmarked s).intake.timecode = s.intake.timecode := by
  unfold endUnmarked
  split
  · exact ⟨rfl, rfl, rfl, rfl⟩
  · split
    · exact ⟨rfl, rfl, rfl, rfl⟩
    · next a _ _ i _ =>
      rw [(runCoders_work (endMalformed a i s)).intake]
      exact ⟨rfl, rfl, rfl, rfl⟩

/-- What a frame start in RUNNING leaves of Picture Intake, and that it clears no notice once the frame still in
arrival has ended. -/
theorem frameStart_intake {s : State} (time : Nat) (running : s.intake.state = .running) :
    ∃ t, exec (.frameStart time) s = .next t
      ∧ t.intake = { (endUnmarked s).intake with
        counter := s.intake.counter + 1
        timecode := nextLabel s.rate s.intake.timecode
        arrival := some (newArrival (endUnmarked s))
        lost := if (endUnmarked s).freeSlot.isSome then (endUnmarked s).intake.lost
          else countUp countMax (endUnmarked s).intake.lost 1 }
      ∧ ∀ n, (endUnmarked s).isPending n = true → t.isPending n = true := by
  obtain ⟨-, geometry, counter, timecode⟩ := endUnmarked_intake s
  obtain ⟨started, raises⟩ := startFrame_intake (endUnmarked s)
  obtain ⟨reported, reports⟩ := reportStart_intake (endUnmarked s).intake.counter time (startFrame (endUnmarked s))
  have settled := settle_followedBy (reportStart (endUnmarked s).intake.counter time (startFrame (endUnmarked s)))
  have rate : (endUnmarked s).rate = s.rate := by simp only [State.rate, geometry]
  refine ⟨_, frameStart_running time running, ?_, fun n p => (settled.raises n).1 (reports n (raises n p))⟩
  rw [settled.intake.intake, reported, started, counter, timecode, rate]

/-! ## Frame ends -/

theorem frameEnd_slot {s : State} {a : Arrival} {g : Geometry} {i : Nat} (going : s.intake.state ≠ .stopped)
    (arrival : s.intake.arrival = some a) (geometry : s.intake.geometry = some g) (slot : a.slot = some i) :
    exec .frameEnd s = .next (if a.good g then settle (runCoders (endGood a i s))
      else settle (runCoders (endMalformed a i s))) := by
  show Host.Outcome.next (frameEnd s) = _
  unfold frameEnd
  split
  · exact absurd ‹_› going
  · simp_all
  · next b e _ =>
    obtain rfl : a = b := by simpa [arrival] using e
    simp only [slot, State.pictureGeometry, geometry, Option.getD_some]

theorem endGood_eq (a : Arrival) (i : Nat) (s : State) : endGood a i s = { s with
    intake := { s.intake with arrival := none }
    slots := s.slots.modify i fun x => { x with state := .ready, refs := 2 }
    inputs := ⟨s.inputs.master ++ [.slot ⟨i, a.frame, a.label, a.unlocked, a.phase⟩],
      s.inputs.proxy ++ [.slot ⟨i, a.frame, a.label, a.unlocked, a.phase⟩]⟩ } := by
  simp only [endGood, changeAt_eq_modify]
  rfl

theorem good_iff (a : Arrival) (g : Geometry) : a.good g = true ↔ a.bad = false ∧ a.lines = g.height := by
  simp [Arrival.good]

/-- A frame start that finds a frame with a slot ends that frame as malformed, and its slot is FREE for the new one
(R13). -/
theorem frameStart_ends {s : State} {time i : Nat} {a : Arrival} (running : s.intake.state = .running)
    (arrival : s.intake.arrival = some a) (slot : a.slot = some i) (inside : i < s.slots.length) :
    ∃ t, exec (.frameStart time) s = .next t
       ∧ t.intake.malformed = min (s.intake.malformed + 1) (2 ^ 32 - 1) ∧ t.intake.lost = s.intake.lost
       ∧ t.isPending .intake = true ∧ t.isPending .fault = true
       ∧ t.intake.arrival.map (fun b => (b.frame, b.label, b.slot.isSome, b.lines, b.bad))
         = some (s.intake.counter, s.intake.timecode, true, 0, false)
       ∧ t.intake.counter = s.intake.counter + 1 := by
  obtain ⟨t, command, intake, raises⟩ := frameStart_intake time running
  obtain ⟨-, -, counter, timecode⟩ := endUnmarked_intake s
  have ended : endUnmarked s = runCoders (endMalformed a i s) := by simp [endUnmarked, arrival, slot]
  have work := runCoders_work (endMalformed a i s)
  have malformed : (endUnmarked s).intake.malformed = min (s.intake.malformed + 1) (2 ^ 32 - 1)
      ∧ (endUnmarked s).intake.lost = s.intake.lost := by
    rw [ended, work.intake]
    exact ⟨rfl, rfl⟩
  have free : (endUnmarked s).freeSlot.isSome = true := by
    have freed : (endMalformed a i s).slots[i]? = some Slot.empty := by
      rw [endMalformed_eq]
      simp [reportFault, inside, Slot.empty]
    rw [ended]
    exact firstIndex_isSome (List.mem_of_getElem? (work.free i freed)) rfl
  have pending : ∀ n, n = .intake ∨ n = .fault → (endUnmarked s).isPending n = true := fun n e => by
    rw [ended]
    refine work.raises n ?_
    rw [endMalformed_eq, reportFault_raise_pending]
    rcases e with rfl | rfl <;> simp
  refine ⟨t, command, by rw [intake]; exact malformed.1, by rw [intake, free]; exact malformed.2,
    raises _ (pending _ (.inl rfl)), raises _ (pending _ (.inr rfl)), ?_, by rw [intake]⟩
  rw [intake]
  simp [newArrival, counter, timecode, free]

/-- Settles O19: a frame that ends while both coders are CODING only leaves its slot and its place in the lists. -/
theorem frameEndEnds : Obligations.FrameEndEnds := by
  refine ⟨fun s a g calm going arrival geometry master proxy => ⟨fun i slot good lines => ?_, fun i slot broken => ?_,
    fun lost => ?_⟩, fun s time i a running arrival slot inside => frameStart_ends running arrival slot inside,
    fun s time calm stopping => ⟨fun empty => ?_, fun a arrival lost => ?_, fun a i arrival slot master proxy => ?_⟩⟩
  · refine follows_of_settle (u := _) ?_ ?_
    · rw [frameEnd_slot going arrival geometry slot, if_pos ((good_iff a g).mpr ⟨good, lines⟩),
        runCoders_coding (s := endGood a i s) master proxy, endGood_eq]
    · exact calm
  · have bad : ¬ a.good g = true := by
      rw [good_iff]
      rcases broken with bad | lines
      · simp [bad]
      · simp [lines]
    refine follows_of_settle (u := _) ?_ ?_
    · rw [frameEnd_slot going arrival geometry slot, if_neg bad,
        runCoders_coding (s := endMalformed a i s) master proxy, endMalformed_eq]
    · exact calm
  · show Host.Outcome.next (frameEnd s) = _
    unfold frameEnd
    split <;> simp_all [clearArrival]
  all_goals
    have command : exec (.frameStart time) s = .next (settle (endUnmarked s)) := by
      show Host.Outcome.next (frameStart time s) = _
      simp [frameStart, stopping]
  · exact follows_of_settle (by rw [command]; simp [endUnmarked, empty]) calm
  · refine follows_of_settle (u := clearArrival s) ?_ calm
    rw [command]
    simp [endUnmarked, arrival, lost]
  · refine follows_of_settle (u := _) ?_ ?_
    · rw [command, ← endMalformed_eq, ← runCoders_coding (s := endMalformed a i s) master proxy]
      simp [endUnmarked, arrival, slot]
    · exact calm

end Sys2Proof.Proofs
end

section
/-! SUPPORT. The timecode counter: counted in frames of a day, skipped labels left out, a label goes up by one at
each frame (R17). -/

namespace Sys2Proof.Proofs

open Sys2Proof.Machine Sys2Proof.Laws

/-- The timecode bases with the frames skipped at a minute: the rates' own, and none where the flag is clear. -/
def bases : List (Nat × Nat) :=
  [(24, 0), (25, 0), (30, 2), (30, 0), (48, 0), (50, 0), (60, 4), (60, 0), (100, 0), (120, 0)]

theorem rate_mem_bases (c : Fin 12) (drop : Bool) :
    ((rateOf c).base, if drop then (rateOf c).skip else 0) ∈ bases := by
  revert c drop
  decide

/-- The number of a frame in its day: frame `f` of second `s` of minute `m`, with `skip` numbers left out at every
minute but the tenth ones. -/
def frameIndex (base skip m s f : Nat) : Nat := (m * 60 + s) * base + f - skip * (m - m / 10)

/-- How many frames a day has. -/
def dayFrames (base skip : Nat) : Nat := 86400 * base - skip * 1296

section
variable {base skip m s f : Nat} (mem : (base, skip) ∈ bases) (minute : m ≤ 1439)
include mem minute

/-- Only the day's last frame is the last of its day. -/
theorem frameIndex_lt (second : s ≤ 59) (frame : f < base) (more : m < 1439 ∨ s < 59 ∨ f + 1 < base) :
    frameIndex base skip m s f + 1 < dayFrames base skip := by
  simp only [bases, List.mem_cons, Prod.mk.injEq, List.not_mem_nil, or_false] at mem
  unfold frameIndex dayFrames
  rcases mem with h | h | h | h | h | h | h | h | h | h <;> obtain ⟨rfl, rfl⟩ := h <;> omega

theorem frameIndex_frame (second : s ≤ 59) (frame : f + 1 < base) :
    frameIndex base skip m s (f + 1) = (frameIndex base skip m s f + 1) % dayFrames base skip := by
  rw [Nat.mod_eq_of_lt (frameIndex_lt mem minute second (by omega) (.inr (.inr frame)))]
  simp only [bases, List.mem_cons, Prod.mk.injEq, List.not_mem_nil, or_false] at mem
  unfold frameIndex
  rcases mem with h | h | h | h | h | h | h | h | h | h <;> obtain ⟨rfl, rfl⟩ := h <;> omega

theorem frameIndex_second (second : s + 1 ≤ 59) (frame : f + 1 = base) :
    frameIndex base skip m (s + 1) 0 = (frameIndex base skip m s f + 1) % dayFrames base skip := by
  rw [Nat.mod_eq_of_lt (frameIndex_lt mem minute (by omega) (by omega) (.inr (.inl second)))]
  simp only [bases, List.mem_cons, Prod.mk.injEq, List.not_mem_nil, or_false] at mem
  unfold frameIndex
  rcases mem with h | h | h | h | h | h | h | h | h | h <;> obtain ⟨rfl, rfl⟩ := h <;> omega

theorem frameIndex_minute (frame : f + 1 = base) :
    frameIndex base skip ((m + 1) % 1440) 0 (if (m + 1) % 1440 % 10 = 0 then 0 else skip)
      = (frameIndex base skip m 59 f + 1) % dayFrames base skip := by
  rcases Nat.lt_or_ge m 1439 with before | last
  · rw [Nat.mod_eq_of_lt (a := m + 1) (by omega),
      Nat.mod_eq_of_lt (frameIndex_lt mem minute le_rfl (by omega) (.inl before))]
    simp only [bases, List.mem_cons, Prod.mk.injEq, List.not_mem_nil, or_false] at mem
    unfold frameIndex
    split <;> rcases mem with h | h | h | h | h | h | h | h | h | h <;> obtain ⟨rfl, rfl⟩ := h <;> omega
  · obtain rfl : m = 1439 := by omega
    have day : frameIndex base skip 1439 59 f + 1 = dayFrames base skip := by
      simp only [bases, List.mem_cons, Prod.mk.injEq, List.not_mem_nil, or_false] at mem
      unfold frameIndex dayFrames
      rcases mem with h | h | h | h | h | h | h | h | h | h <;> obtain ⟨rfl, rfl⟩ := h <;> omega
    rw [day, Nat.mod_self]
    simp [frameIndex]

end

/-! ## Labels -/

/-- The minute of the day of a label. -/
def dayMinute (l : Label) : Nat := l.hours * 60 + l.minutes

/-- What `labelFits` says, field by field (R18). -/
theorem labelFits_fields (r : Rate) (l : Label) : labelFits r l = true ↔
    l.hours ≤ 23 ∧ l.minutes ≤ 59 ∧ l.seconds ≤ 59 ∧ l.frames < r.base ∧ (l.drop = true → r.skip ≠ 0) := by
  rw [labelFits, Bool.and_eq_true, decide_eq_true_eq]
  cases l.drop <;> simp [and_assoc]

/-- The next label by the part of it that rolls over (R17, steps 1 to 6). -/
theorem nextLabel_cases {r : Rate} {l : Label} (fits : labelFits r l = true) :
    (l.frames + 1 < r.base ∧ nextLabel r l = { l with frames := l.frames + 1 })
    ∨ (l.frames + 1 = r.base ∧ l.seconds + 1 ≤ 59
      ∧ nextLabel r l = { l with frames := 0, seconds := l.seconds + 1 })
    ∨ (l.frames + 1 = r.base ∧ l.seconds = 59 ∧ ∃ h m, h ≤ 23 ∧ m ≤ 59 ∧ h * 60 + m = (dayMinute l + 1) % 1440
      ∧ nextLabel r l = ⟨h, m, 0, if m % 10 = 0 then 0 else if l.drop then r.skip else 0, l.drop⟩) := by
  obtain ⟨hours, minutes, seconds, frames, -⟩ := (labelFits_fields r l).mp fits
  unfold nextLabel dayMinute
  by_cases frame : l.frames + 1 < r.base
  · exact .inl ⟨frame, if_pos frame⟩
  · by_cases second : l.seconds + 1 < 60
    · exact .inr (.inl ⟨by omega, by omega, by rw [if_neg frame, if_pos second]⟩)
    · refine .inr (.inr ⟨by omega, by omega, ?_⟩)
      simp only [frame, second, if_false]
      refine ⟨if l.minutes + 1 < 60 then l.hours else if l.hours + 1 < 24 then l.hours + 1 else 0,
        if l.minutes + 1 < 60 then l.minutes + 1 else 0, by split_ifs <;> omega, by split_ifs <;> omega,
        by split_ifs <;> omega, ?_⟩
      generalize (if l.minutes + 1 < 60 then l.minutes + 1 else 0) = m
      by_cases tenth : m % 10 = 0 <;> simp [tenth]

/-- A frame's label counted on by one is the label of the next frame of the day. -/
theorem nextLabel_counts (c : Fin 12) (l : Label) (fits : labelFits (rateOf c) l = true)
    (legal : isSkipped (rateOf c) l = false) :
    let skip := if l.drop then (rateOf c).skip else 0
    labelFits (rateOf c) (nextLabel (rateOf c) l) = true ∧ isSkipped (rateOf c) (nextLabel (rateOf c) l) = false
      ∧ (nextLabel (rateOf c) l).drop = l.drop
      ∧ frameIndex (rateOf c).base skip (dayMinute (nextLabel (rateOf c) l)) (nextLabel (rateOf c) l).seconds
          (nextLabel (rateOf c) l).frames
        = (frameIndex (rateOf c).base skip (dayMinute l) l.seconds l.frames + 1) % dayFrames (rateOf c).base skip := by
  intro skip
  have mem : ((rateOf c).base, skip) ∈ bases := rate_mem_bases c l.drop
  have small : (rateOf c).skip < (rateOf c).base := by
    clear mem skip legal fits
    revert c
    decide
  obtain ⟨hours, minutes, seconds, frames, drop⟩ := (labelFits_fields _ l).mp fits
  have minute : dayMinute l ≤ 1439 := by unfold dayMinute; omega
  simp only [labelFits_fields, Bool.eq_false_iff, ne_eq, isSkipped_iff] at legal ⊢
  rcases nextLabel_cases fits with ⟨more, next⟩ | ⟨full, more, next⟩ | ⟨full, last, h, m, hour, most, sum, next⟩
  · rw [next]
    refine ⟨⟨hours, minutes, seconds, more, drop⟩, ?_, rfl, frameIndex_frame mem minute seconds more⟩
    rintro ⟨flag, low, zero, tenth⟩
    exact legal ⟨flag, by simp only at low; omega, zero, tenth⟩
  · rw [next]
    refine ⟨⟨hours, minutes, more, by simp only; omega, drop⟩, ?_, rfl, frameIndex_second mem minute more full⟩
    rintro ⟨-, -, zero, -⟩
    exact absurd zero (Nat.succ_ne_zero _)
  · have tenth : (dayMinute l + 1) % 1440 % 10 = m % 10 := by omega
    have counts := frameIndex_minute mem minute full
    rw [← sum] at counts
    rw [next, last]
    refine ⟨⟨hour, most, by simp, ?_, drop⟩, ?_, rfl, ?_⟩
    · simp only
      split
      · omega
      · split <;> omega
    · rintro ⟨flag, low, -, odd⟩
      simp only at flag low odd
      simp [odd, flag] at low
    · rw [← counts]
      have same : (h * 60 + m) % 10 = m % 10 := by omega
      simp only [dayMinute, same, skip]

/-- Settles O17: the frame start leaves the label of the next frame, whatever else it does. -/
theorem frameStartCountsTimecode : Obligations.FrameStartCountsTimecode := by
  intro s time g running geometry r skip count fits legal
  obtain ⟨t, command, intake, -⟩ := frameStart_intake time running
  have rate : s.rate = r := by simp [State.rate, geometry, r]
  have label : t.intake.timecode = nextLabel r s.intake.timecode := by rw [intake, rate]
  refine ⟨t, command, ?_⟩
  rw [label]
  exact nextLabel_counts g.code s.intake.timecode fits legal

end Sys2Proof.Proofs
end

section
/-! SUPPORT. How an entry whose frames are of one class joins its queue (sections 5.2 and 5.5): it is dropped, joins
for the recording clip, or is held; and what stands beside the queues does not matter to it. -/

namespace Sys2Proof.Proofs

open Sys2Proof.Machine Sys2Proof.Laws

/-! ## Entries of one class -/

theorem runs_const (cls : FrameClass) (n : Nat) : (List.range (n + 1)).foldl (fun runs i => addToRuns cls i runs) []
    = [⟨cls, 0, n + 1⟩] := by
  induction n with
  | zero => rfl
  | succ n ih => rw [List.range_succ, List.foldl_append, ih]; simp [addToRuns]

/-- An entry all of whose frames are of one class is one piece. -/
theorem join_one {e : Entry} {s : State} {cls : FrameClass} (count : 1 ≤ e.count)
    (all : ∀ i < e.count, classify s (frameAfter e.frame i) = cls) :
    join e s = settlePiece cls e (markIntake e s) := by
  have same : ∀ x, classify (markIntake e s) x = classify s x := fun _ => rfl
  have runs : classRuns (markIntake e s) e = [⟨cls, 0, e.count⟩] := by
    obtain ⟨n, hn⟩ : ∃ n, e.count = n + 1 := ⟨e.count - 1, by omega⟩
    unfold classRuns
    rw [List.foldl_ext _ (fun runs i => addToRuns cls i runs) _ fun runs i m => by
      rw [same, all i (List.mem_range.mp m)], hn, runs_const]
    rfl
  have whole : ∀ r, pieceOf r e ⟨cls, 0, e.count⟩ = e := fun r => by
    simp [pieceOf, frameAfter, labelAfter]
  simp [join, runs, whole]

/-- Where no clip and no pre-roll takes a frame, its entry is dropped, its intake mark set all the same (R77). -/
theorem join_dropped {e : Entry} {s : State} (count : 1 ≤ e.count) (clips : s.clipList = []) (depth : s.queue.depth = 0) :
    join e s = markIntake e s :=
  join_one (cls := .dropped) count fun i _ => by simp [classify, clips, State.prerollOn, depth]

/-! ## Room -/

theorem indexFull_iff (es : List Entry) : indexFull es = true ↔ ¬ es.length + 1 ≤ 8188 := by
  simp [indexFull]

/-- A piece fits exactly where R71 gives it room. -/
theorem fits_iff (st : Stream) (n : Nat) (s : State) : fits st (s.entries st) n = true ↔ HasRoom st n s := by
  have area : queueArea st = areaOf st := by cases st <;> rfl
  simp [fits, indexFull, HasRoom, area]

/-- With room there is nothing to age (R83). -/
theorem ageForRoom_fits {st : Stream} {size : Nat} {s : State} (first : Frame) (fuel : Nat) (room : HasRoom st size s) :
    ageForRoom st size first fuel s = s := by
  cases fuel with
  | zero => rfl
  | succ fuel => rw [ageForRoom, if_pos ((fits_iff st size s).mpr room)]

theorem makeRoom_fits {e : Entry} {s : State} (room : HasRoom e.stream e.size s) : makeRoom e s = s :=
  ageForRoom_fits _ _ room

theorem firstHeld_none {es : List Entry} (h : ∀ e ∈ es, e.clip ≠ none) : firstHeld es = none :=
  List.find?_eq_none.mpr fun e m => by simpa [Entry.isHeld] using h e m

/-- With no held entry there is nothing to age. -/
theorem makeRoom_none {s : State} (e : Entry) (h : ∀ st, ∀ y ∈ s.entries st, y.clip ≠ none) : makeRoom e s = s := by
  have none : oldestHeld s = none := by simp [oldestHeld, firstHeld_none (h .master), firstHeld_none (h .proxy)]
  unfold makeRoom
  generalize heldFrames (s.entries .master) + heldFrames (s.entries .proxy) = fuel
  cases fuel with
  | zero => rfl
  | succ fuel => simp [ageForRoom, none]

/-! ## The words of the statements -/

theorem putQueue_eq (st : Stream) (es : List Entry) (s : State) : putQueue st es s = withEntries st es s := by
  cases st <;> rfl

theorem clips_withEntries (st : Stream) (es : List Entry) (s : State) : (withEntries st es s).clips = s.clips :=
  clips_raiseIf _ _ _

theorem entries_withEntries (st : Stream) (es : List Entry) (s : State) : (withEntries st es s).entries st = es := by
  simp [State.entries, withEntries]

theorem entries_withEntries_other {st other : Stream} (es : List Entry) (s : State) (h : other ≠ st) :
    (withEntries st es s).entries other = s.entries other := by
  simp [State.entries, withEntries, Per.get_set_other _ _ h]

theorem clipList_withClip (c : Clip) (s : State) :
    (withClip c s).clipList = s.clipList.map fun d => if d.number = c.number then c else d := by
  unfold State.clipList withClip
  dsimp only
  induction s.clips.table with
  | nil => rfl
  | cons r rest ih =>
    cases r with
    | none => simpa using ih
    | some d => simpa using ih

theorem raiseIf_comm {f : State → State} {n : Notice} (h : ∀ u, raise n (f u) = f (raise n u)) (b : Bool) (s : State) :
    raiseIf b n (f s) = f (raiseIf b n s) := by
  cases b with
  | false => rfl
  | true => exact h s

/-- Both queues become `q`. -/
def putQueues (q : Per Queue) (s : State) : State := { s with queue := { s.queue with queues := q } }

theorem withEntries_eq (st : Stream) (es : List Entry) (s : State) : withEntries st es s
    = raiseIf (decide (areaOf st * s.queue.highMark / 100 ≤ bytesInUse es) && !(s.queue.queues.get st).aboveMark)
      (.high st) (putQueues (s.queue.queues.set
        ⟨es, decide (areaOf st * s.queue.highMark / 100 ≤ bytesInUse es)⟩ st) s) := rfl

/-! ## What stands beside the queues -/

/-- `f` changes nothing that placing an entry in a queue reads or writes. -/
structure BesideEntries (f : State → State) : Prop where
  entries : ∀ u st, (f u).entries st = u.entries st
  queues : ∀ u, (f u).queue.queues = u.queue.queues
  highMark : ∀ u, (f u).queue.highMark = u.queue.highMark
  puts : ∀ q u, putQueues q (f u) = f (putQueues q u)
  raises : ∀ n u, raise n (f u) = f (raise n u)

theorem withEntries_beside {f : State → State} (h : BesideEntries f) (st : Stream) (es : List Entry) (s : State) :
    withEntries st es (f s) = f (withEntries st es s) := by
  rw [withEntries_eq, withEntries_eq, h.queues, h.highMark, h.puts, raiseIf_comm (h.raises _)]

theorem withEntries_withClip (st : Stream) (es : List Entry) (c : Clip) (s : State) :
    withClip c (withEntries st es s) = withEntries st es (withClip c s) :=
  (withEntries_beside (f := withClip c) ⟨fun _ _ => rfl, fun _ => rfl, fun _ => rfl, fun _ _ => rfl, fun _ _ => rfl⟩ st es s).symm

/-- `f` changes nothing that joining reads or writes, and so can come before or after it. -/
structure Beside (f : State → State) : Prop extends BesideEntries f where
  clips : ∀ u c, withClip c (f u) = f (withClip c u)

/-- A change beside the queues can come before or after entries join. -/
theorem withJoined_beside {f : State → State} (h : Beside f) (st : Stream) (es : List Entry) (c : Clip) (s : State) :
    withJoined st c es (f s) = f (withJoined st c es s) := by
  induction es generalizing c s with
  | nil => rfl
  | cons e rest ih => rw [withJoined, withJoined, h.entries, h.clips, withEntries_beside h.toBesideEntries, ih]

theorem beside_intakeMarks (m : Per (Option Frame) → Per (Option Frame)) :
    Beside fun u => { u with queue := { u.queue with intakeMarks := m u.queue.intakeMarks } } :=
  ⟨⟨fun _ _ => rfl, fun _ => rfl, fun _ => rfl, fun _ _ => rfl, fun _ _ => rfl⟩, fun _ _ => rfl⟩

theorem beside_markIntake (e : Entry) : Beside (markIntake e) :=
  beside_intakeMarks fun m => m.set (some (frameAfter e.frame e.count)) e.stream

/-- The slots, the lists and the coders stand beside the queues. -/
theorem beside_coders (slots : List Slot → List Slot) (inputs : Per (List Item) → Per (List Item))
    (master : MasterCoder → MasterCoder) (proxy : ProxyPath → ProxyPath) : Beside fun u => { u with
      slots := slots u.slots, inputs := inputs u.inputs, master := master u.master, proxy := proxy u.proxy } :=
  ⟨⟨fun _ _ => rfl, fun _ => rfl, fun _ => rfl, fun _ _ => rfl, fun _ _ => rfl⟩, fun _ _ => rfl⟩

/-- What a frame start reports to Clip Control, the sync capture and the Page Writer, with no SYNC_REF line and no
WAIT for frames in flight (R9). -/
def startReported (x : Frame) (time : Nat) (u : State) : State :=
  { u with
    clips := { u.clips with recentStart := some x }
    lines := { u.lines with sync := { u.lines.sync with reference := some time } }
    page := { u.page with owed := u.page.owed || u.page.address.isSome } }

theorem beside_startReported (x : Frame) (time : Nat) : Beside (startReported x time) :=
  ⟨⟨fun _ _ => rfl, fun _ => rfl, fun _ => rfl, fun _ _ => rfl, fun _ _ => rfl⟩, fun _ _ => rfl⟩

/-! ## Joining for the recording clip -/

theorem mem_unique_of_find {α : Type} {p : α → Bool} {l : List α} {c : α} (mem : c ∈ l) (holds : p c = true)
    (only : ∀ d ∈ l, p d = true → d = c) : l.find? p = some c := by
  obtain ⟨d, found⟩ := Option.isSome_iff_exists.mp (List.find?_isSome.mpr ⟨c, mem, holds⟩)
  rw [found, only d (List.mem_of_find?_eq_some found) (List.find?_some found)]

/-- A frame that the recording clip takes is committed to it (R74). -/
theorem classify_takes {c : Clip} {x : Frame} {s : State} (h : TakesFrame c x s) :
    classify s x = .committed c.number := by
  obtain ⟨⟨mem, recording, -⟩, above, others⟩ := h
  have found : s.clipList.find? (fun d => d.covers x) = some c := by
    refine mem_unique_of_find mem (by simp [Clip.covers, above, recording]) fun d m covers => ?_
    by_contra other
    have below := others d m other
    rcases closing : d.closing with _ | k
    · simp [closing] at below
    · simp [closing] at below
      simp [Clip.covers, closing, below] at covers
  simp [classify, found]

/-- A change of the one record with a number. -/
theorem changeClip_only {c : Clip} {s : State} (only : ∀ d ∈ s.clipList, d.number = c.number → d = c) (f : Clip → Clip)
    (number : (f c).number = c.number) : changeClip c.number f s = withClip (f c) s := by
  unfold changeClip withClip
  simp only [number]
  congr 2
  refine List.map_congr_left fun r m => ?_
  cases r with
  | none => rfl
  | some d =>
    by_cases same : d.number = c.number
    · obtain rfl := only d (List.mem_filterMap.mpr ⟨some d, m, rfl⟩) same
      simp
    · simp [same]

/-- A change of the recording clip's record. -/
theorem changeClip_records {c : Clip} {s : State} (h : Records c s) (f : Clip → Clip)
    (number : (f c).number = c.number) : changeClip c.number f s = withClip (f c) s :=
  changeClip_only (fun d m same => h.2.2 d m (.inr same)) f number

theorem records_withClip {c c' : Clip} {s : State} (h : Records c s) (number : c'.number = c.number)
    (closing : c'.closing = none) : Records c' (withClip c' s) := by
  obtain ⟨mem, -, only⟩ := h
  rw [Records, clipList_withClip]
  refine ⟨List.mem_map.mpr ⟨c, mem, by simp [number]⟩, closing, fun d m same => ?_⟩
  obtain ⟨b, inside, rfl⟩ := List.mem_map.mp m
  by_cases same' : b.number = c'.number
  · simp [same']
  · rw [if_neg same'] at same ⊢
    exact absurd (only b inside (same.imp_right (·.trans number)) ▸ number.symm) same'

theorem takesFrame_withClip {c c' : Clip} {x : Frame} {s : State} (h : TakesFrame c x s)
    (number : c'.number = c.number) (closing : c'.closing = none) (first : c'.first = c.first) :
    TakesFrame c' x (withClip c' s) := by
  obtain ⟨records, above, others⟩ := h
  refine ⟨records_withClip records number closing, by rw [first]; exact above, fun d m other => ?_⟩
  rw [clipList_withClip] at m
  obtain ⟨b, inside, rfl⟩ := List.mem_map.mp m
  by_cases same : b.number = c'.number
  · simp [same] at other
  · rw [if_neg same]
    exact others b inside fun e => same (e ▸ number.symm)

theorem takesFrame_withEntries {c : Clip} {x : Frame} {s : State} (h : TakesFrame c x s) (st : Stream)
    (es : List Entry) : TakesFrame c x (withEntries st es s) := by
  have same : (withEntries st es s).clipList = s.clipList := by simp only [State.clipList, clips_withEntries]
  rw [TakesFrame, Records, same]
  exact h

/-- A RECORDING clip's trailers are not due (R106). -/
theorem testTrailers_records {c : Clip} {s : State} (h : Records c s) : testTrailers c.number s = s := by
  obtain ⟨-, recording, only⟩ := h
  unfold testTrailers
  split
  · rfl
  · next d found =>
    have mem := List.mem_of_find?_eq_some found
    have same := List.find?_some found
    obtain rfl := only d mem (.inr (by simpa using same))
    simp [trailerDue, recording]

/-- The entry as it stands in its clip's queue. -/
abbrev placed (c : Clip) (e : Entry) : Entry := { e with clip := some c.number, preroll := false }

/-- A committed piece of the recording clip is placed and reported (R75, R103). -/
theorem placeCommitted_records {c : Clip} {s : State} (h : Records c s) (e : Entry) :
    placeCommitted c.number e s = withJoined e.stream c [e] s := by
  have unchanged : Records c (putQueue e.stream (s.entries e.stream ++ [placed c e]) s) := by
    rw [putQueue_eq]
    have same : (withEntries e.stream (s.entries e.stream ++ [placed c e]) s).clipList = s.clipList := by
      simp only [State.clipList, clips_withEntries]
    rw [Records, same]
    exact h
  show testTrailers c.number (changeClip c.number (pieceReported e.stream (placed c e)) _) = _
  rw [changeClip_records unchanged _ rfl, show c.number = (pieceReported e.stream (placed c e) c).number from rfl,
    testTrailers_records (records_withClip (c' := pieceReported e.stream (placed c e) c) unchanged rfl h.2.1),
    putQueue_eq, withEntries_withClip]
  rfl

/-- An entry of the recording clip's frames that fits joins the queue for it (R75). -/
theorem join_takes {c : Clip} {e : Entry} {s : State} (count : 1 ≤ e.count)
    (takes : ∀ i < e.count, TakesFrame c (frameAfter e.frame i) s) (room : HasRoom e.stream e.size s) :
    join e s = withJoined e.stream c [e] (markIntake e s) := by
  have marked : HasRoom e.stream e.size (markIntake e s) := room
  rw [join_one count fun i lt => classify_takes (takes i lt), settlePiece, settleCommitted]
  simp only [makeRoom_fits marked, (fits_iff _ _ _).mpr marked, if_true]
  exact placeCommitted_records (s := markIntake e s) (takes 0 count).1 e

/-- The clip after an entry of its has joined still takes the frames it took. -/
theorem takesFrame_joined {c : Clip} {x : Frame} {s : State} (h : TakesFrame c x s) (st : Stream) (e : Entry) :
    TakesFrame (clipWith (placed c e) c) x (withJoined st c [e] s) :=
  takesFrame_withEntries (takesFrame_withClip (c' := clipWith (placed c e) c) h rfl h.1.2.1 rfl) _ _

theorem entries_joined (st : Stream) (c : Clip) (e : Entry) (s : State) :
    (withJoined st c [e] s).entries st = s.entries st ++ [placed c e] := entries_withEntries _ _ _

theorem entries_joined_other {st other : Stream} (h : other ≠ st) (c : Clip) (e : Entry) (s : State) :
    (withJoined st c [e] s).entries other = s.entries other := entries_withEntries_other _ _ h

end Sys2Proof.Proofs
end

section
/-! SUPPORT. Gap tokens that become GAP entries, the coders that complete a picture, and frames that are lost. -/

namespace Sys2Proof.Proofs

open Sys2Proof.Machine Sys2Proof.Laws

/-! ## Gap tokens -/

theorem labelAfter_add (r : Rate) (a b : Nat) (l : Label) : labelAfter r (a + b) l = labelAfter r b (labelAfter r a l) := by
  induction a generalizing l with
  | zero => rw [Nat.zero_add]; rfl
  | succ a ih => rw [Nat.succ_add, labelAfter, ih]; rfl

/-- The GAP entries of a gap token, at most 65,535 frames each (R21, R36). -/
def gapPieces (r : Rate) (st : Stream) (first : Frame) (count : Nat) (label : Label) : List Entry :=
  (List.range ((count + 65534) / 65535)).map fun i =>
    gapOf st (first + BitVec.ofNat 32 (65535 * i)) (min (count - 65535 * i) 65535) (labelAfter r (65535 * i) label)

/-- The first piece of a gap token, and the token that is left. -/
theorem gapPieces_succ (r : Rate) (st : Stream) (first : Frame) {count : Nat} (label : Label) (h : 1 ≤ count) :
    gapPieces r st first count label = gapOf st first (min count 65535) label
      :: gapPieces r st (frameAfter first (min count 65535)) (count - min count 65535)
        (labelAfter r (min count 65535) label) := by
  rcases Nat.lt_or_ge 65535 count with more | few
  · have pieces : (count + 65534) / 65535 = (count - 65535 + 65534) / 65535 + 1 := by omega
    rw [Nat.min_eq_right more.le, gapPieces, gapPieces, pieces, List.range_succ_eq_map, List.map_cons, List.map_map]
    refine congrArg₂ _ (by simp [labelAfter, more.le]) (List.map_congr_left fun i _ => ?_)
    rw [Function.comp_apply, Nat.succ_eq_add_one, Nat.mul_succ, Nat.add_comm (65535 * i), labelAfter_add,
      BitVec.ofNat_add, ← BitVec.add_assoc, Nat.sub_add_eq]
    rfl
  · have one : (count + 65534) / 65535 = 1 := by omega
    rw [Nat.min_eq_left few, gapPieces, gapPieces, one, Nat.sub_self]
    simp [labelAfter, few]

/-- The intake mark of a stream after a gap token; a token of no frames leaves it. -/
def markAfter (st : Stream) (first : Frame) (count : Nat) (m : Per (Option Frame)) : Per (Option Frame) :=
  if count = 0 then m else m.set (some (frameAfter first count)) st

theorem markAfter_pos (st : Stream) (first : Frame) {count : Nat} (h : 1 ≤ count) :
    markAfter st first count = fun m => m.set (some (frameAfter first count)) st :=
  funext fun _ => if_neg (Nat.pos_iff_ne_zero.mp h)

/-- `s` with the intake marks changed. -/
def withMarks (f : Per (Option Frame) → Per (Option Frame)) (s : State) : State :=
  { s with queue := { s.queue with intakeMarks := f s.queue.intakeMarks } }

theorem QueueWork.inputs {s t : State} (h : QueueWork s t) : t.inputs = s.inputs := (congrArg State.inputs h.besides :)

theorem withClip_work (c : Clip) (s : State) : QueueWork s (withClip c s) := ⟨rfl, by simp [withClip], fun _ => id⟩

theorem withEntries_work (st : Stream) (es : List Entry) (s : State) : QueueWork s (withEntries st es s) := by
  rw [← putQueue_eq]
  exact putQueue_work st es s

theorem withJoined_work (st : Stream) (c : Clip) (es : List Entry) (s : State) : QueueWork s (withJoined st c es s) := by
  induction es generalizing c s with
  | nil => exact .refl s
  | cons e rest ih => exact ((withClip_work _ s).trans (withEntries_work _ _ _)).trans (ih _ _)

theorem rate_joined (st : Stream) (c : Clip) (es : List Entry) (s : State) : (withJoined st c es s).rate = s.rate := by
  have same : (withJoined st c es s).intake = s.intake := (withJoined_work st c es s).coders.intake
  simp only [State.rate, same]

theorem frameAfter_add (x : Frame) (a b : Nat) : frameAfter (frameAfter x a) b = frameAfter x (a + b) := by
  simp only [frameAfter, BitVec.ofNat_add, BitVec.add_assoc]

/-- A gap token whose frames the recording clip takes becomes GAP entries of it, one after another (R21, R75). -/
theorem handGaps_takes (st : Stream) (fuel : Nat) (first : Frame) (count : Nat) (label : Label) (s : State) (c : Clip)
    (enough : count < 65535 * fuel + 1) (takes : ∀ i < count, TakesFrame c (frameAfter first i) s)
    (places : (s.entries st).length + (gapPieces s.rate st first count label).length ≤ 8188)
    (bytes : bytesInUse (s.entries st) + 32 * (gapPieces s.rate st first count label).length + 1280 ≤ areaOf st) :
    handGaps st fuel first count label s
      = withJoined st c (gapPieces s.rate st first count label) (withMarks (markAfter st first count) s) := by
  induction fuel generalizing first count label s c with
  | zero =>
    obtain rfl : count = 0 := by omega
    rfl
  | succ fuel ih =>
    rcases Nat.eq_zero_or_pos count with rfl | some
    · rw [handGaps, if_pos rfl]
      rfl
    rw [gapPieces_succ s.rate st first label some, List.length_cons] at places bytes
    rw [gapPieces_succ s.rate st first label some, handGaps, if_neg some.ne']
    have p1 : 1 ≤ min count 65535 := by omega
    have p2 : min count 65535 ≤ count := Nat.min_le_left _ _
    have p3 : count - min count 65535 < 65535 * fuel + 1 := by omega
    dsimp only
    generalize min count 65535 = p at places bytes p1 p2 p3 ⊢
    have join : join (gapEntry st first p label) s
        = withJoined st c [gapOf st first p label] (markIntake (gapOf st first p label) s) :=
      join_takes (e := gapOf st first p label) p1 (fun i lt => takes i (lt.trans_le p2))
        ⟨by simp only [gapOf]; omega, by simp only [gapOf]; omega⟩
    have entries : (withJoined st c [gapOf st first p label] (markIntake (gapOf st first p label) s)).entries st
        = s.entries st ++ [placed c (gapOf st first p label)] := entries_joined _ _ _ _
    have rate : (withJoined st c [gapOf st first p label] (markIntake (gapOf st first p label) s)).rate = s.rate :=
      rate_joined _ _ _ _
    have tail := ih (frameAfter first p) (count - p) (labelAfter s.rate p label)
      (withJoined st c [gapOf st first p label] (markIntake (gapOf st first p label) s))
      (clipWith (placed c (gapOf st first p label)) c) p3
      (fun i lt => by
        rw [frameAfter_add]
        exact takesFrame_joined (s := markIntake (gapOf st first p label) s) (takes (p + i) (by omega)) st _)
      (by rw [rate, entries, List.length_append, List.length_singleton]; omega)
      (by
        rw [rate, entries]
        simp only [bytesInUse, List.map_append, List.sum_append, List.map_cons, List.map_nil, List.sum_singleton,
          placed, gapOf] at bytes ⊢
        omega)
    have marks : withMarks (markAfter st (frameAfter first p) (count - p)) (markIntake (gapOf st first p label) s)
        = withMarks (markAfter st first count) s := by
      simp only [withMarks, markAfter]
      rw [if_neg some.ne']
      split
      · next done =>
        obtain rfl : p = count := by omega
        rfl
      · rw [frameAfter_add, Nat.add_sub_cancel' p2]
        cases st <;> rfl
    have moved : withMarks (markAfter st (frameAfter first p) (count - p))
        (withJoined st c [gapOf st first p label] (markIntake (gapOf st first p label) s))
        = withJoined st c [gapOf st first p label] (withMarks (markAfter st first count) s) := by
      rw [← marks]
      exact (withJoined_beside (beside_intakeMarks _) _ _ _ _).symm
    rw [join, tail, rate, moved]
    rfl

/-! ## Releasing a slot -/

theorem modify_eq_set {α : Type} (f : α → α) {l : List α} {i : Nat} {x : α} (h : l[i]? = some x) :
    l.modify i f = l.set i (f x) := by
  rw [List.modify_eq_set_getElem?, h]
  rfl

/-- A coder's release of a READY slot that it holds (R8). -/
theorem releaseSlot_eq {s : State} {i : Nat} {x : Slot} (slot : s.slots[i]? = some x) (ready : x.state = .ready)
    (held : 1 ≤ x.refs) : releaseSlot i s = { s with slots := s.slots.set i (slotReleased x) } := by
  have one : x.refs ≤ 1 ↔ x.refs = 1 := by omega
  rw [releaseSlot, changeAt_eq_modify, modify_eq_set _ slot]
  simp only [releasedSlot, slotReleased, Slot.empty, ready, one, if_true]

theorem runMaster_empty {s : State} (n : Nat) (h : s.inputs.master = []) : runMaster n s = s := by
  cases n with
  | zero => rfl
  | succ n =>
    unfold runMaster
    split
    · rfl
    · simp [h]

theorem runProxy_empty {s : State} (n : Nat) (h : s.inputs.proxy = []) : runProxy n s = s := by
  cases n with
  | zero => rfl
  | succ n =>
    unfold runProxy
    split
    · rfl
    · simp [h]

/-! ## Gap tokens at the front of an idle coder's list -/

/-- The lists changed. -/
def withInputs (f : Per (List Item) → Per (List Item)) (u : State) : State := { u with inputs := f u.inputs }

theorem beside_withInputs (f : Per (List Item) → Per (List Item)) : Beside (withInputs f) :=
  beside_coders id f id id

/-- An idle Master Coder takes the gap token at the front of its list (R20). -/
theorem runMaster_token {u : State} {first : Frame} {count : Nat} {label : Label} {rest : List Item} (fuel : Nat)
    (idle : u.master.picture = none) (list : u.inputs.master = .gap first count label :: rest) :
    runMaster (fuel + 1) u
      = runMaster fuel (handToken .master first count label (withInputs (fun l => { l with master := rest }) u)) := by
  rw [runMaster, idle, list]
  rfl

/-- An idle Proxy Path takes the gap token at the front of its list (R35). -/
theorem runProxy_token {u : State} {first : Frame} {count : Nat} {label : Label} {rest : List Item} (fuel : Nat)
    (idle : u.proxy.picture = none) (list : u.inputs.proxy = .gap first count label :: rest) :
    runProxy (fuel + 1) u
      = runProxy fuel (handToken .proxy first count label (withInputs (fun l => { l with proxy := rest }) u)) := by
  rw [runProxy, idle, list]
  rfl

/-- An idle coder turns a gap token whose frames the recording clip takes into its GAP entries, and has done with
its list (R21). -/
theorem runMaster_gap {u : State} {c : Clip} {first : Frame} {count : Nat} {label : Label}
    (idle : u.master.picture = none) (list : u.inputs.master = [.gap first count label])
    (takes : ∀ i < count, TakesFrame c (frameAfter first i) u)
    (places : (u.entries .master).length + (gapPieces u.rate .master first count label).length ≤ 8188)
    (bytes : bytesInUse (u.entries .master) + 32 * (gapPieces u.rate .master first count label).length + 1280
      ≤ areaOf .master) :
    runMaster 2 u = withJoined .master c (gapPieces u.rate .master first count label)
      (withMarks (markAfter .master first count) (withInputs (fun l => { l with master := [] }) u)) := by
  have token : handToken .master first count label (withInputs (fun l => { l with master := [] }) u) = _ :=
    handGaps_takes .master _ first count label _ c (by omega) takes places bytes
  rw [runMaster_token 1 idle list, token]
  refine runMaster_empty _ ?_
  rw [(withJoined_work _ _ _ _).inputs]
  rfl

end Sys2Proof.Proofs
end

section
/-! SUPPORT. The end of a master attempt that completes its picture (R27, R28). -/

namespace Sys2Proof.Proofs

open Sys2Proof.Machine Sys2Proof.Laws

theorem clamp_within {low high v : Nat} (above : low ≤ v) (below : v ≤ high) : clamp low high v = v := by
  unfold clamp
  omega

theorem bytesInUse_append (es : List Entry) (e : Entry) : bytesInUse (es ++ [e]) = bytesInUse es + e.size := by
  simp [bytesInUse]

/-- Nothing that the coders do touches what a calm state is about. -/
theorem CoderWork.calm {s t : State} (h : CoderWork s t) (calm : Calm s) : Calm t := by
  have writers : t.writers = s.writers := (congrArg State.writers h.besides :)
  have walker : t.walker = s.walker := (congrArg State.walker h.besides :)
  have arbiter : t.arbiter = s.arbiter := (congrArg State.arbiter h.besides :)
  simpa [Calm, State.writer, State.flight, writers, walker, arbiter] using calm

/-- The next tag for a coding's bytes (log entry 1). -/
abbrev nextTag (s : State) : State := { s with freeTag := s.freeTag + 1 }

/-- The master picture is done: its slot, `x`, is released, and the coder is IDLE. -/
def masterDone (i : Nat) (x : Slot) (u : State) : State :=
  { u with slots := u.slots.set i (slotReleased x), master := { u.master with picture := none } }

theorem beside_masterDone (i : Nat) (x : Slot) : Beside (masterDone i x) :=
  beside_coders (fun l => l.set i (slotReleased x)) id (fun m => { m with picture := none }) id

theorem completeMaster_eq {p : MasterPicture} {s : State} {x : Slot} (size tag : Nat)
    (slot : s.slots[p.item.slot]? = some x) (ready : x.state = .ready) (held : 1 ≤ x.refs) :
    completeMaster p size tag s = runMaster (s.inputs.master.length + 1) (masterDone p.item.slot x
      (join (codedEntry .master p.item size p.step p.attempt (exceedsCap p size) tag) s)) := by
  generalize entry : codedEntry .master p.item size p.step p.attempt (exceedsCap p size) tag = e
  have slots : (join e s).slots = s.slots := (join_work e s).slots
  have inputs : (join e s).inputs = s.inputs := (join_work e s).inputs
  rw [completeMaster, entry]
  dsimp only
  rw [releaseSlot_eq (by rw [slots]; exact slot) ready held, ← inputs]
  rfl

/-- No further attempt follows one that R26 lets be the last. -/
theorem nextAttemptStep_none {p : MasterPicture} (last : p.attempt = 3
      ∨ p.attempt = 1 ∧ p.step = min (p.settings.step + 4) 63 ∨ p.attempt = 2 ∧ p.step = min (p.settings.step + 8) 63) :
    nextAttemptStep p = none := by
  rcases last with third | ⟨first, same⟩ | ⟨second, same⟩
  · simp [nextAttemptStep, third]
  · simp [nextAttemptStep, first, ← same]
  · simp [nextAttemptStep, second, ← same]

/-- An attempt that completes its picture ends in what follows from the coder's going on with its list. -/
theorem attemptEnd_follows {s t : State} {p : MasterPicture} {n : Nat} {x : Slot} (calm : Calm s)
    (picture : s.master.picture = some p) (low : 1 ≤ n) (high : n ≤ p.width * p.height * 3)
    (slot : s.slots[p.item.slot]? = some x) (ready : x.state = .ready) (held : 1 ≤ x.refs)
    (last : p.settings.cap ≠ 0 ∧ p.settings.cap * 1024 < n + 32 → p.attempt = 3
      ∨ p.attempt = 1 ∧ p.step = min (p.settings.step + 4) 63 ∨ p.attempt = 2 ∧ p.step = min (p.settings.step + 8) 63)
    (goes : runMaster (s.inputs.master.length + 1) (masterDone p.item.slot x
      (join (codedEntry .master p.item (n + 32) p.step p.attempt
        (decide (p.settings.cap ≠ 0 ∧ p.settings.cap * 1024 < n + 32)) s.freeTag) (nextTag s))) = t) :
    ∃ u, exec (.attemptEnd n) s = .next u ∧ Follows t u := by
  have size : masterSize p n = n + 32 := by rw [masterSize, clamp_within low high]
  have exceeds : exceedsCap p (n + 32) = decide (p.settings.cap ≠ 0 ∧ p.settings.cap * 1024 < n + 32) := by
    simp [exceedsCap, bne, Bool.beq_eq_decide_eq]
  have ended : endAttempt n s = t := by
    rw [← goes, ← exceeds, ← completeMaster_eq (s := (nextTag s)) _ _ slot ready held]
    simp only [endAttempt, picture, size]
    split
    · next exceeded => rw [nextAttemptStep_none (last (by simpa [exceeds] using exceeded))]
    · rfl
  have joined : Calm (join (codedEntry .master p.item (n + 32) p.step p.attempt
      (decide (p.settings.cap ≠ 0 ∧ p.settings.cap * 1024 < n + 32)) s.freeTag) (nextTag s)) :=
    (join_coders _ _).calm calm
  refine follows_of_settle (by rw [← ended]; rfl) ?_
  rw [← goes]
  exact (runMaster_work _ (masterDone _ _ _)).calm joined

theorem takesFrame_first {c : Clip} {x : Frame} {s : State} (h : TakesFrame c x s) :
    ∀ i < 1, TakesFrame c (frameAfter x i) s := fun i lt => by
  obtain rfl : i = 0 := by omega
  simpa [frameAfter] using h

/-- Settles O21: the entry is dropped, joins alone, or joins with the GAP entries of the token behind it. -/
theorem attemptEndCompletes : Obligations.AttemptEndCompletes := by
  intro s p n x calm picture low high slot ready held exceeds last e done
  have inputs : (masterDone p.item.slot x (join e (nextTag s))).inputs = s.inputs :=
    (join_work e (nextTag s)).inputs
  have follows : ∀ {t : State}, runMaster (s.inputs.master.length + 1)
        (masterDone p.item.slot x (join e (nextTag s))) = t →
      ∃ u, exec (.attemptEnd n) s = .next u ∧ Follows t u :=
    attemptEnd_follows calm picture low high slot ready held last
  have joins : ∀ c, TakesFrame c p.item.frame s → HasRoom .master (n + 32) s →
      masterDone p.item.slot x (join e (nextTag s)) = withJoined .master c [e] done :=
    fun c takes room => by
      rw [join_takes (s := nextTag s) (c := c) (e := e) le_rfl (takesFrame_first takes) room]
      exact (withJoined_beside (beside_masterDone p.item.slot x) .master [e] c _).symm
  refine ⟨fun empty clips depth => follows ?_, fun c empty takes room => ?_, fun c first frames label gap some takes all =>
    ?_⟩
  · rw [runMaster_empty _ (by rw [inputs, empty]), join_dropped (s := nextTag s) (e := e) le_rfl clips depth]
    rfl
  · intro above counts
    refine follows ?_
    rw [runMaster_empty _ (by rw [inputs, empty]), joins c takes room]
    have flag : above = decide (6442450944 * s.queue.highMark / 100 ≤ bytesInUse (s.entries .master ++ [placed c e])) := by
      rw [bytesInUse_append]
    have record : clipWith (placed c e) c = { c with
        start := c.start.or (some p.item.label)
        reach := ⟨p.item.frame + 1, c.reach.proxy⟩
        counts := ⟨counts, c.counts.proxy⟩ } := by
      simp only [clipWith, e, decide_eq_true_eq, counts]
      rfl
    rw [flag, ← record]
    rfl
  · intro pieces places bytes
    refine follows ?_
    have room : HasRoom .master (n + 32) s := ⟨by omega, by simp only [areaOf]; omega⟩
    rw [joins c takes room, gap]
    have same : (withJoined .master c [e] done).rate = s.rate := rate_joined _ _ _ _
    have entries : (withJoined .master c [e] done).entries .master = s.entries .master ++ [placed c e] :=
      entries_joined _ _ _ _
    have waits : (withJoined .master c [e] done).inputs.master = [.gap first frames label] := by
      rw [← joins c takes room, inputs, gap]
    have idle : (withJoined .master c [e] done).master.picture = none := by
      rw [← joins c takes room]
      rfl
    have goes := runMaster_gap (c := clipWith (placed c e) c) idle waits
      (fun i lt => takesFrame_joined (s := done) (all i lt) .master e)
      (by rw [same, entries, List.length_append]; exact places)
      (by rw [same, entries, bytesInUse_append]; exact bytes)
    rw [List.length_singleton, goes, same]
    have marks : withMarks (markAfter .master first frames) (withInputs (fun l => { l with master := [] })
        (withJoined .master c [e] done))
        = withJoined .master c [e] (withMarks (markAfter .master first frames)
          (withInputs (fun l => { l with master := [] }) done)) := by
      rw [← withJoined_beside (beside_withInputs _)]
      exact (withJoined_beside (beside_intakeMarks _) _ _ _ _).symm
    rw [marks, markAfter_pos _ _ some]
    rfl

end Sys2Proof.Proofs
end

section
/-! SUPPORT. Master pictures outside every clip, with pre-roll on: held, aged out for, or dropped. -/

namespace Sys2Proof.Proofs

open Sys2Proof.Machine Sys2Proof.Laws

/-! ## The aging line -/

/-- The aging line at `x`, with the held marks below it gone, before the queues are touched. -/
def agedTo (x : Frame) (s : State) : State :=
  { s with
    queue := { s.queue with agingLine := x }
    clips := { s.clips with held := s.clips.held.filter fun m => !isBelow m.frame x } }

theorem besideEntries_dropHeldMarks (x : Frame) : BesideEntries (dropHeldMarks x) :=
  ⟨fun _ _ => rfl, fun _ => rfl, fun _ => rfl, fun _ _ => rfl, fun _ _ => rfl⟩

/-- The aging line moves, and each queue keeps what ages to `es` (R80). -/
theorem setAging_eq {x : Frame} {s : State} {master proxy : List Entry}
    (masters : agedEntries s.rate x (s.entries .master) = master)
    (proxies : agedEntries s.rate x (s.entries .proxy) = proxy) :
    setAging x s = withEntries .proxy proxy (withEntries .master master (agedTo x s)) := by
  rw [setAging, masters, proxies, putQueue_eq, putQueue_eq, ← withEntries_beside (besideEntries_dropHeldMarks x),
    ← withEntries_beside (besideEntries_dropHeldMarks x)]
  rfl

theorem last_one {e : Entry} (one : e.count = 1) : e.last = e.frame := by
  rw [Entry.last, lastFrame, frameAfter, one]
  exact BitVec.add_sub_cancel _ _

/-- Entries that are of a clip, or lie at or above the aging line, stay as they are. -/
theorem agedEntries_same {r : Rate} {x : Frame} {es : List Entry}
    (stays : ∀ y ∈ es, y.clip = none → y.count = 1 ∧ isBelow y.frame x = false) : agedEntries r x es = es := by
  refine (List.filterMap_congr fun y m => ?_).trans List.filterMap_some
  rcases clip : y.clip with _ | c
  · obtain ⟨one, above⟩ := stays y m clip
    simp [Entry.isHeld, clip, agedEntry, Entry.allBelow, last_one one, above]
  · simp [Entry.isHeld, clip]

theorem agedEntries_clips {r : Rate} {x : Frame} {es : List Entry} (clips : ∀ y ∈ es, y.clip ≠ none) :
    agedEntries r x es = es := agedEntries_same fun y m held => absurd held (clips y m)

theorem isBelow_next (x : Frame) : isBelow x (x + 1) = true := by
  have one : x + 1 - x = 1 := by bv_omega
  rw [isBelow, one]
  decide

/-- The oldest held frame goes when the aging line moves past it. -/
theorem agedEntries_oldest (r : Rate) {old : Entry} (rest : List Entry) (held : old.clip = none) (one : old.count = 1) :
    agedEntries r (old.frame + 1) (old :: rest) = agedEntries r (old.frame + 1) rest := by
  refine List.filterMap_cons_none ?_
  simp only [Entry.isHeld, held, agedEntry, Entry.allBelow, last_one one, isBelow_next]
  rfl

/-! ## Held entries -/

/-- A frame above every clip of the table is held or dropped (R76, R77). -/
theorem classify_outside {x : Frame} {s : State}
    (closed : ∀ d ∈ s.clipList, d.closing.any (fun k => isBelow k.last x) = true) (depth : 0 < s.queue.depth)
    (rate : s.intake.geometry ≠ none) :
    classify s x = if isBelow x s.queue.agingLine then .dropped else .held := by
  have none : s.clipList.find? (fun d => d.covers x) = none := by
    refine List.find?_eq_none.mpr fun d m covers => ?_
    obtain ⟨k, closing, below⟩ := (Option.any_eq_true _ _).mp (closed d m)
    simp [Clip.covers, closing, below] at covers
  have on : s.prerollOn = true := by simp [State.prerollOn, depth, Option.isSome_iff_ne_none.mpr rate]
  rw [classify, none, on]
  cases isBelow x s.queue.agingLine <;> rfl

theorem heldFrames_append (es : List Entry) {e : Entry} (held : e.clip = none) :
    heldFrames (es ++ [e]) = heldFrames es + e.count := by
  simp [heldFrames, List.filter_append, Entry.isHeld, held]

theorem enforceLimit_within {s : State} (h : heldFrames (s.entries .master) ≤ s.queue.limit) : enforceLimit s = s := by
  unfold enforceLimit
  cases heldFrames (s.entries .master) with
  | zero => rfl
  | succ fuel => rw [ageToLimit, if_pos h]

/-- With room, and one frame more allowed, a held master entry of one frame joins at the tail (R76, R81). -/
theorem settleHeld_fits {e : Entry} {s : State} (master : e.stream = .master) (held : e.clip = none)
    (preroll : e.preroll = false) (one : e.count = 1) (room : HasRoom .master e.size s)
    (limit : heldFrames (s.entries .master) < s.queue.limit) :
    settleHeld e s = withEntries .master (s.entries .master ++ [e]) s := by
  have same : { e with clip := none, preroll := false } = e := by rw [← held, ← preroll]
  have kept : (withEntries .master (s.entries .master ++ [e]) s).queue.limit = s.queue.limit :=
    (congrArg (fun u => u.queue.limit) (withEntries_work .master (s.entries .master ++ [e]) s).besides :)
  rw [settleHeld, makeRoom_fits (by rw [master]; exact room), master, (fits_iff _ _ _).mpr room, if_pos rfl, placeHeld, same,
    master, putQueue_eq]
  refine enforceLimit_within ?_
  rw [kept, entries_withEntries, heldFrames_append _ held, one]
  exact limit

/-- Without room, one round of the pressure procedure ages the oldest held frame out; what then fits joins (R83). -/
theorem settleHeld_ages {e old : Entry} {s : State} (master : e.stream = .master) (rest : List Entry)
    (crowded : ¬ HasRoom .master e.size s) (entries : s.entries .master = old :: rest) (held : old.clip = none)
    (one : old.count = 1) (below : isBelow old.frame e.frame = true) (clips : ∀ y ∈ s.entries .proxy, y.clip ≠ none)
    (room : HasRoom .master e.size (setAging (old.frame + 1) s)) :
    settleHeld e s = settleHeld e (setAging (old.frame + 1) s) := by
  have first : oldestHeld s = some old.frame := by
    have front : firstHeld (old :: rest) = some old := List.find?_cons_of_pos (by simp [Entry.isHeld, held])
    rw [oldestHeld, entries, front, firstHeld_none clips]
  have full : fits .master (s.entries .master) e.size = false := by
    rw [← Bool.not_eq_true, fits_iff]
    exact crowded
  have some : heldFrames (s.entries .master) + heldFrames (s.entries .proxy)
      = (heldFrames rest + heldFrames (s.entries .proxy)) + 1 := by
    simp [entries, heldFrames, Entry.isHeld, held, one]
    omega
  have made : makeRoom e s = setAging (old.frame + 1) s := by
    rw [makeRoom, master, some, ageForRoom, full, first, if_neg Bool.false_ne_true]
    exact (if_pos below).trans (ageForRoom_fits _ _ room)
  rw [settleHeld, settleHeld, made, makeRoom_fits (by rw [master]; exact room)]

/-- Without room and without held entries, a held piece is dropped, and the aging line goes past it (R84). -/
theorem settleHeld_drops {e : Entry} {s : State} (master : e.stream = .master) (crowded : ¬ HasRoom .master e.size s)
    (clips : ∀ st, ∀ y ∈ s.entries st, y.clip ≠ none) : settleHeld e s = setAging (frameAfter e.frame e.count) s := by
  rw [settleHeld, makeRoom_none e clips, master, if_neg (by rw [fits_iff]; exact crowded)]

/-- An entry of one frame is one piece, settled by the class of that frame (R74). -/
theorem join_single {e : Entry} {s : State} {cls : FrameClass} (one : e.count = 1) (class_ : classify s e.frame = cls) :
    join e s = settlePiece cls e (markIntake e s) :=
  join_one one.ge fun i lt => by
    obtain rfl : i = 0 := by omega
    simpa [frameAfter] using class_

/-- Settles O22, by the class of the frame and, where it is held, by what makes its room. -/
theorem heldEntryJoins : Obligations.HeldEntryJoins := by
  intro s p n x calm picture low high cap empty slot ready held closed depth rate e done
  have small : decide (p.settings.cap ≠ 0 ∧ p.settings.cap * 1024 < n + 32) = false := by simp [cap]
  have follows : ∀ {t : State}, masterDone p.item.slot x (join e (nextTag s)) = t →
      ∃ u, exec (.attemptEnd n) s = .next u ∧ Follows t u := fun {t} joined => by
    refine attemptEnd_follows calm picture low high slot ready held (fun exceeds => absurd cap exceeds.1) ?_
    rw [small]
    refine (runMaster_empty _ ?_).trans joined
    exact (congrArg Per.master (join_work e (nextTag s)).inputs).trans empty
  have class_ := classify_outside closed depth rate
  have joins : isBelow p.item.frame s.queue.agingLine = false →
      join e (nextTag s) = settleHeld e (markIntake e (nextTag s)) := fun above =>
    join_single (s := nextTag s) (e := e) (cls := .held) rfl (class_.trans (by rw [above]; rfl))
  have aside := fun es => withEntries_beside (beside_masterDone p.item.slot x).toBesideEntries es
  refine ⟨fun below => follows ?_, fun above room limit => ?_, fun old rest above crowded entries oldHeld oldOne oldBelow
    clips stays places bytes limit => follows ?_, fun above crowded clips => follows ?_⟩
  · rw [join_single (s := nextTag s) (e := e) (cls := .dropped) rfl (class_.trans (by rw [below]; rfl))]
    rfl
  · intro flag
    refine follows ?_
    rw [joins above, settleHeld_fits (e := e) (s := markIntake e (nextTag s)) rfl rfl rfl rfl room limit, ← aside]
    have flagged : flag = decide (6442450944 * s.queue.highMark / 100 ≤ bytesInUse (s.entries .master ++ [e])) := by
      rw [bytesInUse_append]
    rw [flagged]
    rfl
  · have aged : setAging (old.frame + 1) (markIntake e (nextTag s)) = withEntries .proxy (s.entries .proxy)
        (withEntries .master rest (agedTo (old.frame + 1) (markIntake e (nextTag s)))) :=
      setAging_eq ((congrArg (agedEntries _ _) entries).trans
        ((agedEntries_oldest _ rest oldHeld oldOne).trans (agedEntries_same stays))) (agedEntries_clips clips)
    have left : (setAging (old.frame + 1) (markIntake e (nextTag s))).entries .master = rest := by
      rw [aged, entries_withEntries_other _ _ (by decide), entries_withEntries]
    have kept : (setAging (old.frame + 1) (markIntake e (nextTag s))).queue.limit = s.queue.limit :=
      (congrArg (fun u => u.queue.limit) (setAging_work _ _).besides :)
    have room : HasRoom .master (n + 32) (setAging (old.frame + 1) (markIntake e (nextTag s))) := by
      rw [HasRoom, left]
      exact ⟨places, bytes⟩
    rw [joins above, settleHeld_ages (e := e) (s := markIntake e (nextTag s)) rfl rest crowded entries oldHeld oldOne oldBelow clips room,
      settleHeld_fits (e := e) rfl rfl rfl rfl room (by rw [left, kept]; exact limit), left, aged, ← aside, ← aside, ← aside]
    rfl
  · have aged := setAging_eq (x := p.item.frame + 1) (s := markIntake e (nextTag s)) (agedEntries_clips (clips .master))
      (agedEntries_clips (clips .proxy))
    rw [joins above, settleHeld_drops (e := e) (s := markIntake e (nextTag s)) rfl crowded clips]
    refine (congrArg (masterDone p.item.slot x) aged).trans ?_
    rw [← aside, ← aside]
    rfl

end Sys2Proof.Proofs
end

section
/-! SUPPORT. The end of proxy coding: what the governor is charged, and what becomes of the entry. -/

namespace Sys2Proof.Proofs

open Sys2Proof.Machine Sys2Proof.Laws

/-! ## The charge -/

/-- A debt deeper than the burst is cut back and counted (R61). -/
theorem charge_eq (size : Nat) (g : Governor) : charge size g = { g with
    credit := max (g.credit - size) (-g.burst)
    overruns := if g.credit - size < -g.burst then min (g.overruns + 1) (2 ^ 32 - 1) else g.overruns } := by
  unfold charge
  split
  · next deep => rw [max_eq_right deep.le]; rfl
  · next shallow => rw [max_eq_left (not_lt.mp shallow)]

theorem afterCompletion_off {g : Governor} (size : Nat) (off : g.inputs.mode = .off) :
    afterCompletion size g = { g with openPicture := false } := by
  simp [afterCompletion, off]

/-- In DEGRADE and SKIP a completed picture is charged, and the step follows the credit (R61, R62). -/
theorem afterCompletion_on {g : Governor} (size : Nat) (on : g.inputs.mode ≠ .off) : afterCompletion size g
    = { charge size { g with openPicture := false } with step := updatedStep (charge size { g with openPicture := false }) } := by
  unfold afterCompletion
  cases mode : g.inputs.mode with
  | off => exact absurd mode on
  | degrade => rfl
  | skip => rfl

/-! ## The coder goes IDLE -/

/-- The proxy picture is done: its slot, `x`, is released, and the path is IDLE. -/
def proxyDone (i : Nat) (x : Slot) (u : State) : State :=
  { u with slots := u.slots.set i (slotReleased x), proxy := { u.proxy with picture := none } }

theorem beside_proxyDone (i : Nat) (x : Slot) : Beside (proxyDone i x) :=
  beside_coders (fun l => l.set i (slotReleased x)) id id (fun p => { p with picture := none })

/-- The next tag for a coding's bytes (log entry 1), and the governor's books as `g`. -/
abbrev chargedTo (g : Governor) (s : State) : State := { s with freeTag := s.freeTag + 1, governor := g }

/-- With nothing more on its list, the path's entry joins, its slot is released, and it is IDLE (R44). -/
theorem endProxyCoding_eq {s : State} {p : ProxyPicture} {n : Nat} {x : Slot} (picture : s.proxy.picture = some p)
    (low : 1 ≤ n) (high : n ≤ (p.geometry.width / p.geometry.factor) * (p.geometry.height / p.geometry.factor) * 3)
    (empty : s.inputs.proxy = []) (slot : s.slots[p.item.slot]? = some x) (ready : x.state = .ready) (held : 1 ≤ x.refs) :
    endProxyCoding n s = proxyDone p.item.slot x (join (codedEntry .proxy p.item (n + 32) p.step 1 false s.freeTag)
      (chargedTo (afterCompletion (n + 32) s.governor) s)) := by
  have size : proxySize p n = n + 32 := by rw [proxySize, clamp_within low high]
  rw [endProxyCoding, picture]
  dsimp only
  rw [size]
  have work := join_work (codedEntry .proxy p.item (n + 32) p.step 1 false s.freeTag)
    (chargedTo (afterCompletion (n + 32) s.governor) s)
  rw [releaseSlot_eq (by rw [work.slots]; exact slot) ready held]
  refine runProxy_empty _ ?_
  exact (congrArg Per.proxy work.inputs).trans empty

/-! ## The entry -/

/-- A proxy picture of the recording clip that only its bytes keep out is replaced by a REPEAT entry (R85). -/
theorem join_replaced {c : Clip} {e : Entry} {s : State} (proxy : e.stream = .proxy) (coded : e.kind = .coded)
    (one : e.count = 1) (takes : TakesFrame c e.frame s) (crowded : ¬ HasRoom .proxy e.size s) (room : HasRoom .proxy 32 s)
    (clips : ∀ st, ∀ y ∈ s.entries st, y.clip ≠ none) :
    join e s = withJoined .proxy c [substitute e] (markIntake e s) := by
  have index : indexFull ((markIntake e s).entries .proxy) = false := by
    rw [← Bool.not_eq_true, indexFull_iff, not_not]
    exact room.1
  rw [join_single one (classify_takes takes), settlePiece, settleCommitted, proxy, makeRoom_none (s := markIntake e s) e clips, if_neg (by rw [fits_iff]; exact crowded), index, replaceOrBreak,
    if_pos ⟨proxy, coded, rfl⟩, if_pos ((fits_iff .proxy (substitute e).size (markIntake e s)).mpr room),
    placeCommitted_records (s := markIntake e s) takes.1]
  exact congrArg (fun st => withJoined st c [substitute e] (markIntake e s)) proxy

/-! ## The last frame of a closed clip -/

theorem insertAfterLast_all {p : Entry → Bool} (e a : Entry) {es : List Entry} (all : ∀ y ∈ a :: es, p y = true) :
    insertAfterLast p e (a :: es) = some (a :: es ++ [e]) := by
  induction es generalizing a with
  | nil => simp [insertAfterLast, all a List.mem_cons_self]
  | cons b rest ih =>
    rw [insertAfterLast, ih b fun y m => all y (List.mem_cons_of_mem a m)]
    rfl

/-- Behind the entries of its clip, or in an empty queue, a trailer goes to the tail (R88). -/
theorem placeTrailer_tail {s : State} {c : Clip} (trailer : Entry) {es : List Entry}
    (own : ∀ y ∈ es, y.clip = some c.number) : placeTrailer s c trailer es = es ++ [trailer] := by
  cases es with
  | nil => rfl
  | cons a rest =>
    rw [placeTrailer, insertAfterLast_all trailer a fun y m => by simp [own y m]]
    rfl

theorem withClip_withClip {c d : Clip} (same : c.number = d.number) (s : State) :
    withClip d (withClip c s) = withClip d s := by
  unfold withClip
  simp only [List.map_map]
  congr 2
  refine List.map_congr_left fun r _ => ?_
  cases r with
  | none => rfl
  | some b => by_cases h : b.number = d.number <;> simp [h, same]

/-- The only clip's trailers, once due, are queued at both tails (R106, R107). -/
theorem testTrailers_due {c : Clip} {k : Closing} {s : State} (alone : s.clipList = [c]) (due : trailerDue c = some k)
    (own : ∀ st, ∀ y ∈ s.entries st, y.clip = some c.number) :
    testTrailers c.number s = withEntries .proxy (s.entries .proxy ++ [trailerOf s c k .proxy])
      (withEntries .master (s.entries .master ++ [trailerOf s c k .master]) (withClip { c with queued := ⟨true, true⟩ } s)) := by
  have found : s.clipNumbered c.number = some c := by simp [State.clipNumbered, alone]
  have only : ∀ u : State, u.clipList = [c] → changeClip c.number (fun d => { d with queued := ⟨true, true⟩ }) u
      = withClip { c with queued := ⟨true, true⟩ } u := fun u h =>
    changeClip_only (fun d m _ => by simpa [h] using m) _ rfl
  have clips : ∀ st es u, (withEntries st es u).clipList = u.clipList := fun st es u => by
    simp only [State.clipList, clips_withEntries]
  rw [testTrailers, found]
  dsimp only
  rw [due]
  dsimp only [queueTrailers]
  rw [placeTrailer_tail _ (own .master), placeTrailer_tail _ (own .proxy), putQueue_eq, putQueue_eq,
    only _ (by rw [clips, clips, alone]), withEntries_withClip, withEntries_withClip]
  rfl

theorem trailerOf_governor {s u : State} (same : u.governor = s.governor) (c : Clip) (k : Closing) (st : Stream) :
    trailerOf u c k st = trailerOf s c k st := by
  rw [trailerOf, trailerOf, same]

theorem isBelow_self (x : Frame) : isBelow x x = false := by
  simp [isBelow]

/-- The proxy picture of a closed clip's last frame, which the master stream has covered, joins with both trailers
behind it (R75, R106, R107). -/
theorem join_last {c : Clip} {k : Closing} {e : Entry} {s : State} (proxy : e.stream = .proxy) (one : e.count = 1)
    (alone : s.clipList = [c]) (closing : c.closing = some k) (last : k.last = e.frame)
    (above : isBelow e.frame c.first = false) (reach : c.reach.master = e.frame + 1) (queued : c.queued = ⟨false, false⟩)
    (own : ∀ st, ∀ y ∈ s.entries st, y.clip = some c.number) (room : HasRoom .proxy e.size s) :
    join e s = withEntries .proxy
      (s.entries .proxy ++ [placed c e, trailerOf s (clipWith (placed c e) c) k .proxy])
      (withEntries .master (s.entries .master ++ [trailerOf s (clipWith (placed c e) c) k .master])
        (withEntries .proxy (s.entries .proxy ++ [placed c e])
          (withClip { clipWith (placed c e) c with queued := ⟨true, true⟩ } (markIntake e s)))) := by
  have covers : c.covers e.frame = true := by simp [Clip.covers, above, closing, last, isBelow_self]
  have class_ : classify s e.frame = .committed c.number := by simp [classify, alone, covers]
  have marked : HasRoom .proxy e.size (markIntake e s) := room
  have due : trailerDue (clipWith (placed c e) c) = some k := by
    have reached : (clipWith (placed c e) c).reach = ⟨k.last + 1, k.last + 1⟩ := by
      rw [last]
      simp only [clipWith, proxy, one]
      exact congrArg (fun m => (⟨m, e.frame + 1⟩ : Per Frame)) reach
    rw [trailerDue, reached]
    simp [clipWith, closing, queued]
  generalize record : clipWith (placed c e) c = c' at due ⊢
  have number : c.number = c'.number := by rw [← record]; rfl
  have one_clip : (withEntries .proxy (s.entries .proxy ++ [placed c e]) (withClip c' (markIntake e s))).clipList = [c'] := by
    simp only [State.clipList, clips_withEntries]
    refine (clipList_withClip c' s).trans ?_
    simp [alone, number]
  have theirs : ∀ st, ∀ y ∈ (withEntries .proxy (s.entries .proxy ++ [placed c e])
      (withClip c' (markIntake e s))).entries st, y.clip = some c'.number := fun st y m => by
    cases st with
    | master =>
      rw [entries_withEntries_other _ _ (by decide)] at m
      rw [own .master y m, number]
    | proxy =>
      rw [entries_withEntries, List.mem_append, List.mem_singleton] at m
      rcases m with m | rfl
      · rw [own .proxy y m, number]
      · rw [← number]
  have reported : placeCommitted c.number e (markIntake e s) = testTrailers c'.number
      (withEntries .proxy (s.entries .proxy ++ [placed c e]) (withClip c' (markIntake e s))) := by
    have clips : (withEntries .proxy (s.entries .proxy ++ [placed c e]) (markIntake e s)).clipList = [c] := by
      simp only [State.clipList, clips_withEntries]
      exact alone
    have changed : changeClip c.number (pieceReported e.stream (placed c e))
        (withEntries .proxy (s.entries .proxy ++ [placed c e]) (markIntake e s))
        = withEntries .proxy (s.entries .proxy ++ [placed c e]) (withClip c' (markIntake e s)) := by
      rw [← withEntries_withClip, ← record]
      exact changeClip_only (fun d m _ => by simpa [clips] using m) _ rfl
    rw [← number, ← changed]
    change testTrailers c.number (changeClip c.number (pieceReported e.stream (placed c e))
      (putQueue e.stream (s.entries e.stream ++ [placed c e]) (markIntake e s))) = _
    rw [putQueue_eq, proxy]
  rw [join_single one class_, settlePiece, settleCommitted, makeRoom_fits (by rw [proxy]; exact marked), proxy,
    if_pos ((fits_iff _ _ _).mpr marked), reported, testTrailers_due one_clip due theirs]
  have books : (withEntries .proxy (s.entries .proxy ++ [placed c e]) (withClip c' (markIntake e s))).governor
      = s.governor := (congrArg State.governor (withEntries_work _ _ _).besides :)
  rw [entries_withEntries, entries_withEntries_other _ _ (by decide), trailerOf_governor books, trailerOf_governor books,
    withEntries_withClip, withClip_withClip (c := c') (d := { c' with queued := ⟨true, true⟩ }) rfl, List.append_assoc]
  rfl

/-- Settles O26, by what becomes of the entry; the charge is the same in each case. -/
theorem proxyCodingEndCharges : Obligations.ProxyCodingEndCharges := by
  intro s p n x picture low high empty slot ready held cut step after
  have books : afterCompletion (n + 32) s.governor = after := by
    by_cases off : s.governor.inputs.mode = .off
    · rw [afterCompletion_off _ off]
      exact (if_pos off).symm
    · rw [afterCompletion_on _ off, charge_eq]
      exact (if_neg off).symm
  let e : Entry := codedEntry .proxy p.item (n + 32) p.step 1 false s.freeTag
  have ends : endProxyCoding n s = proxyDone p.item.slot x (join e (chargedTo after s)) := by
    rw [endProxyCoding_eq picture low high empty slot ready held, books]
  have follows : ∀ {u : State}, Calm s → proxyDone p.item.slot x (join e (chargedTo after s)) = u →
      ∃ t, exec (.proxyCodingEnd n) s = .next t ∧ Follows u t := fun {u} calm joined =>
    follows_of_settle (by rw [← joined, ← ends]; rfl) (by
      rw [← joined]
      exact (join_coders e (chargedTo after s)).calm calm)
  have aside := withJoined_beside (beside_proxyDone p.item.slot x)
  refine ⟨?_, fun calm clips depth => ?_, fun c calm takes => ?_, fun c k calm alone closing last above reach queued own room =>
    ?_⟩
  · have work := join_work e (chargedTo after s)
    have follow := settle_followedBy (endProxyCoding n s)
    refine ⟨settle (endProxyCoding n s), rfl, ?_, ?_, ?_, ?_, ?_⟩
    · rw [follow.coders.governor, ends]
      exact (congrArg State.governor work.besides :)
    · rw [follow.coders.proxy, ends]
      rfl
    · rw [follow.intake.slots, ends]
      exact congrArg (fun slots => slots.set p.item.slot (slotReleased x)) work.slots
    · rw [follow.coders.master, ends]
      exact (congrArg State.master work.besides :)
    · rw [follow.records.queue, ends]
      exact (congrArg (fun u => u.queue.intakeMarks.proxy) work.besides :)
  · have dropped : join e (chargedTo after s) = markIntake e (chargedTo after s) :=
      join_dropped (s := chargedTo after s) (e := e) le_rfl clips depth
    obtain ⟨t, command, follow⟩ := follows calm rfl
    refine ⟨t, command, ?_⟩
    rw [follow.coders.freeTag, dropped]
    rw [dropped] at follow
    exact follow
  · intro ended
    refine ⟨fun room => follows calm ?_, fun crowded room clips => follows calm ?_⟩
    · rw [join_takes (s := chargedTo after s) (c := c) (e := e) le_rfl (takesFrame_first takes) room, ← aside]
      rfl
    · rw [join_replaced (s := chargedTo after s) (c := c) (e := e) rfl rfl rfl takes crowded room clips, ← aside]
      rfl
  · intro placed ended trailer
    refine follows calm ?_
    have beside := withEntries_beside (beside_proxyDone p.item.slot x).toBesideEntries
    rw [join_last (s := chargedTo after s) (e := e) rfl rfl alone closing last above reach queued own room, ← beside,
      ← beside, ← beside]
    rfl

end Sys2Proof.Proofs
end

section
/-! SUPPORT. A frame start that finds no FREE slot (R10). -/

namespace Sys2Proof.Proofs

open Sys2Proof.Machine Sys2Proof.Laws

/-- The frame that starts now takes its number and its label, and is counted as lost (R10, R17). -/
def frameCounted (s : State) : State :=
  { s with intake := { s.intake with
    counter := s.intake.counter + 1
    timecode := nextLabel s.rate s.intake.timecode
    lost := min (s.intake.lost + 1) (2 ^ 32 - 1)
    arrival := some ⟨s.intake.counter, s.intake.timecode, s.lines.sync.state == .lost, s.lines.sync.lastPhase,
      none, 0, false⟩ } }

/-- The frame that starts now is lost: counted and reported, its number and label used (R10). -/
def frameLost (s : State) : State :=
  reportFault ⟨.frameLost, .pictureIntake, none, some s.intake.counter, none⟩
    (raise .intake (frameCounted s))

/-- The lists with the gap of the frame that starts now recorded (R14). -/
def gapRecorded (s : State) : State := recordGap s.intake.counter s.intake.timecode (frameLost s)

/-- A frame start with no FREE slot loses the frame, the coders go on with their lists, and it is reported all the
same (R9, R10). -/
theorem frameStart_full {s : State} (time : Nat) (running : s.intake.state = .running)
    (lost : ∀ a, s.intake.arrival = some a → a.slot = none) (full : ∀ x ∈ s.slots, x.state ≠ .free)
    (lines : ∀ l ∈ s.lines.lines, l.role ≠ .syncRef) (flight : ∀ n, s.flight ≠ some (.frames n)) :
    exec (.frameStart time) s
      = .next (settle (startReported s.intake.counter time (runCoders (gapRecorded s)))) := by
  have none : (clearArrival s).freeSlot = none := firstIndex_eq_none fun x m => by simpa using full x m
  have started : startFrame (clearArrival s) = runCoders (gapRecorded s) := by
    simp only [startFrame, newArrival, none]
    rfl
  have work := runCoders_work (gapRecorded s)
  have sameLines : (runCoders (gapRecorded s)).lines = s.lines := (congrArg State.lines work.besides :)
  have sameWalker : (runCoders (gapRecorded s)).walker = s.walker := (congrArg State.walker work.besides :)
  rw [frameStart_running time running, endUnmarked_lost lost, started, reportStart_eq]
  · rfl
  · rw [sameLines]
    exact lines
  · simpa only [State.flight, sameWalker] using flight

theorem frameStart_full_follows {s : State} (time : Nat) (calm : Calm s) (running : s.intake.state = .running)
    (lost : ∀ a, s.intake.arrival = some a → a.slot = none) (full : ∀ x ∈ s.slots, x.state ≠ .free)
    (lines : ∀ l ∈ s.lines.lines, l.role ≠ .syncRef) (flight : ∀ n, s.flight ≠ some (.frames n)) :
    ∃ t, exec (.frameStart time) s = .next t
      ∧ Follows (startReported s.intake.counter time (runCoders (gapRecorded s))) t := by
  have coded : Calm (runCoders (gapRecorded s)) := (runCoders_work (gapRecorded s)).calm calm
  exact follows_of_settle (frameStart_full time running lost full lines flight) coded

/-! ## Both coders CODING -/

theorem frameLost_pending (s : State) (n : Notice) :
    (frameLost s).isPending n = (s.isPending n || decide (n = .intake) || decide (n = .fault)) :=
  reportFault_raise_pending _ _ _ _

theorem frameLost_raises (s : State) : RaisesOnly (.intake :: .fault :: followUps) s (frameLost s) := by
  intro n
  rw [frameLost_pending]
  refine ⟨fun pending => by simp [pending], fun pending => ?_⟩
  simp only [Bool.or_eq_true, decide_eq_true_eq, or_assoc] at pending
  rcases pending with before | rfl | rfl
  · exact .inl before
  · exact .inr (.head _)
  · exact .inr (.tail _ (.head _))

theorem keepsSettings_trans {s t u : State} (h : KeepsSettings s t) (k : KeepsSettings t u) : KeepsSettings s u :=
  ⟨k.pending.trans h.pending, k.mask.trans h.mask, k.freeze.trans h.freeze, k.address.trans h.address,
    k.watermark.trans h.watermark, k.gapTime.trans h.gapTime, k.retry.trans h.retry, k.high.trans h.high⟩

theorem frameLost_settings (s : State) : KeepsSettings s (frameLost s) := by
  obtain ⟨-, mask, freeze, -, -⟩ := logFault_eq ⟨.frameLost, .pictureIntake, none, some s.intake.counter, none⟩
    (raise .intake (frameCounted s))
  exact ⟨rfl, mask, freeze, rfl, rfl, rfl, rfl, rfl⟩

theorem frameLost_log {s : State} (clear : s.isPending .fault = false) :
    (frameLost s).notices.log = some ⟨.frameLost, .pictureIntake, none, some s.intake.counter, none⟩ := by
  obtain ⟨-, -, -, captured, -⟩ := logFault_eq ⟨.frameLost, .pictureIntake, none, some s.intake.counter, none⟩
    (raise .intake (frameCounted s))
  refine (captured ?_).1
  rw [isPending_raise, Bool.or_eq_false_iff]
  exact ⟨clear, rfl⟩

/-- With both coders CODING the lists keep the gap, and the frame start leaves the rest (R10, R14). -/
theorem frameLost_kept {s : State} (time : Nat) :
    let u := startReported s.intake.counter time (gapRecorded s)
    RaisesOnly (.intake :: .fault :: followUps) s u ∧ KeepsSettings s u
      ∧ (∀ n, n = .intake ∨ n = .fault → u.isPending n = true) := by
  refine ⟨frameLost_raises s, ?_, fun n e => ?_⟩
  · obtain ⟨pending, mask, freeze, address, watermark, gapTime, retry, high⟩ := frameLost_settings s
    exact ⟨pending, mask, freeze, address, watermark, gapTime, retry, high⟩
  · refine (frameLost_pending s n).trans ?_
    rcases e with rfl | rfl <;> simp

/-! ## Both coders IDLE -/

theorem handToken_one (st : Stream) (x : Frame) (label : Label) (s : State) :
    handToken st x 1 label s = join (gapOf st x 1 label) s := rfl

/-- The Master Coder has taken all of its list. -/
abbrev masterEmptied : State → State := withInputs fun l => { l with master := [] }

/-- The Proxy Path has taken all of its list. -/
abbrev proxyEmptied : State → State := withInputs fun l => { l with proxy := [] }

theorem beside_proxyEmptied : Beside proxyEmptied := beside_withInputs _

/-- Idle coders whose lists hold a gap of one frame each make a GAP entry of it (R21, R36). -/
theorem runCoders_gap {u : State} {x : Frame} {label : Label} (master : u.master.picture = none)
    (proxy : u.proxy.picture = none) (lists : u.inputs = ⟨[.gap x 1 label], [.gap x 1 label]⟩) :
    runCoders u = join (gapOf .proxy x 1 label) (proxyEmptied
      (join (gapOf .master x 1 label) (masterEmptied u))) := by
  generalize first : join (gapOf .master x 1 label) (masterEmptied u) = v
  have inputs : v.inputs = ⟨[], [.gap x 1 label]⟩ := by
    rw [← first]
    refine (join_work _ _).inputs.trans ?_
    exact congrArg (fun l : Per (List Item) => (⟨[], l.proxy⟩ : Per (List Item))) lists
  have idle : v.proxy.picture = none := by
    rw [← first]
    exact (congrArg (fun t => t.proxy.picture) (join_work (gapOf .master x 1 label) _).besides :).trans proxy
  have masters : runMaster (u.inputs.master.length + 1) u = v := by
    have two : u.inputs.master.length + 1 = 2 := by rw [lists]; rfl
    rw [two, runMaster_token (rest := []) 1 master (by rw [lists]), handToken_one, first]
    exact runMaster_empty _ (by rw [inputs])
  have two : v.inputs.proxy.length + 1 = 2 := by rw [inputs]; rfl
  rw [runCoders, masters, two, runProxy_token (rest := []) 1 idle (by rw [inputs]), handToken_one]
  refine runProxy_empty _ ?_
  rw [(join_work _ _).inputs]
  rfl

/-- GAP entries of a frame that no clip and no pre-roll takes only set the intake marks (R77). -/
theorem join_gaps_dropped {u : State} (x : Frame) (label : Label) (clips : u.clipList = []) (depth : u.queue.depth = 0) :
    join (gapOf .proxy x 1 label) (proxyEmptied (join (gapOf .master x 1 label) u))
      = markIntake (gapOf .proxy x 1 label) (proxyEmptied (markIntake (gapOf .master x 1 label) u)) := by
  have master : join (gapOf .master x 1 label) u = markIntake (gapOf .master x 1 label) u := join_dropped le_rfl clips depth
  rw [master]
  exact join_dropped (s := proxyEmptied (markIntake (gapOf .master x 1 label) u)) le_rfl clips depth

/-- GAP entries of a frame that the recording clip takes join both queues for it (R75). -/
theorem join_gaps_takes {u : State} {c : Clip} {x : Frame} (label : Label) (takes : TakesFrame c x u)
    (room : ∀ st, HasRoom st 32 u) :
    join (gapOf .proxy x 1 label) (proxyEmptied (join (gapOf .master x 1 label) u))
      = withJoined .proxy (clipWith (placed c (gapOf .master x 1 label)) c) [gapOf .proxy x 1 label]
        (withJoined .master c [gapOf .master x 1 label]
          (markIntake (gapOf .proxy x 1 label) (proxyEmptied (markIntake (gapOf .master x 1 label) u)))) := by
  have master : proxyEmptied (join (gapOf .master x 1 label) u)
      = withJoined .master c [gapOf .master x 1 label] (proxyEmptied (markIntake (gapOf .master x 1 label) u)) := by
    rw [join_takes (e := gapOf .master x 1 label) le_rfl (takesFrame_first takes) (room .master)]
    exact (withJoined_beside beside_proxyEmptied _ _ _ _).symm
  have kept : HasRoom .proxy 32
      (withJoined .master c [gapOf .master x 1 label] (proxyEmptied (markIntake (gapOf .master x 1 label) u))) := by
    rw [HasRoom, entries_joined_other (by decide)]
    exact room .proxy
  rw [master, join_takes (e := gapOf .proxy x 1 label) le_rfl
    (takesFrame_first (takesFrame_joined (s := proxyEmptied (markIntake (gapOf .master x 1 label) u)) takes .master _)) kept,
    ← withJoined_beside (beside_markIntake _)]
  rfl

/-- Settles O16: coders that are CODING keep the gap in their lists, idle ones make an entry of it. -/
theorem frameStartLost : Obligations.FrameStartLost := by
  intro s time calm running noSlot full lines flight
  obtain ⟨t, command, follow⟩ := frameStart_full_follows time calm running noSlot full lines flight
  refine ⟨fun master proxy => ⟨t, command, ?_⟩, fun master proxy empty => ?_⟩
  · rw [runCoders_coding (s := gapRecorded s) master proxy] at follow
    obtain ⟨raises, settings, pending⟩ := frameLost_kept (s := s) time
    refine ⟨follow.intake.intake, fun st => ?_, ⟨?_, ?_, ?_⟩, fun clear => ?_, follow.intake.slots, ?_, follow.records.queue,
      follow.records.clips, follow.lines, ?_, follow.shared, follow.walker, follow.grants, follow.results, follow.writers⟩
    · rw [follow.intake.inputs]
      cases st <;> rfl
    · exact (follow.raises _).1 (pending _ (.inl rfl))
    · exact (follow.raises _).1 (pending _ (.inr rfl))
    · exact raisesOnly_trans raises fun n => ⟨(follow.raises n).1, fun p => ((follow.raises n).2 p).imp_right fun m =>
        .tail _ (.tail _ m)⟩
    · exact follow.log.log.trans (frameLost_log clear)
    · obtain ⟨masters, proxies, governor, tag⟩ := follow.coders
      exact ⟨masters, proxies, governor, tag⟩
    · exact keepsSettings_trans settings follow.settings
  · intro x lost gap
    rw [runCoders_gap (u := gapRecorded s) (x := x) (label := s.intake.timecode) master proxy
      (by rw [gapRecorded, recordGap, show (frameLost s).inputs = ⟨[], []⟩ from empty]; rfl)] at follow
    have only : startReported x time (markIntake (gap .proxy) (proxyEmptied (markIntake (gap .master)
        (masterEmptied (gapRecorded s))))) = lost := by
      have lists : lost = withInputs (fun _ => ⟨[], []⟩) lost := by
        rw [← empty]
        rfl
      rw [lists]
      rfl
    refine ⟨fun clips depth => ⟨t, command, ?_⟩, fun c takes room => ⟨t, command, ?_⟩⟩
    · rw [join_gaps_dropped (u := masterEmptied (gapRecorded s)) _ _ clips depth] at follow
      rw [← only]
      exact follow
    · rw [join_gaps_takes (u := masterEmptied (gapRecorded s)) _ takes room,
        ← withJoined_beside (beside_startReported _ _), ← withJoined_beside (beside_startReported _ _)] at follow
      rw [← only]
      exact follow

end Sys2Proof.Proofs
end

section
/-! SUPPORT. What a command leaves of the two tables and of a LOAD_TABLE under way (R31, R32, R46 to R48): settling,
the burst answers and the walker. -/

namespace Sys2Proof.Proofs

open Sys2Proof.Machine Sys2Proof.Laws

/-! ## The tables and a load under way -/

/-- The contents of the two tables. -/
def tablesOf (s : State) := (s.master.table, s.proxy.curve)

/-- All that `TablesSound` and `LoadSound` speak of. -/
def loadView (s : State) :=
  (tablesOf s, s.walker.state, s.walker.block, s.arbiter.resetBurst, s.arbiter.bursts.walker)

/-- Where a LOAD_TABLE under way is sound in `s`, it is sound in `t`, and `t` has the tables of `s`. -/
def Carries (s t : State) : Prop := LoadSound s → tablesOf t = tablesOf s ∧ LoadSound t

theorem Carries.refl (s : State) : Carries s s := fun sound => ⟨rfl, sound⟩

theorem Carries.trans {s t u : State} (h : Carries s t) (k : Carries t u) : Carries s u := fun sound =>
  have ⟨first, middle⟩ := h sound
  have ⟨second, last⟩ := k middle
  ⟨second.trans first, last⟩

theorem Carries.ite {s t u : State} {p : Prop} [Decidable p] (h : Carries s t) (k : Carries s u) :
    Carries s (if p then t else u) := by
  split
  · exact h
  · exact k

theorem Carries.of_eq {s t : State} (h : loadView t = loadView s) : Carries s t := by
  simp only [loadView, Prod.mk.injEq] at h
  obtain ⟨tables, state, block, reset, burst⟩ := h
  refine fun sound => ⟨tables, ⟨?_, ?_, ?_, ?_⟩⟩
  · rw [reset, state]; exact sound.reset
  · rw [state, block]; exact sound.cleared
  · rw [block]; exact sound.waiting
  · rw [block, burst]; exact sound.reading

theorem coderWork_carries {s t : State} (h : CoderWork s t) : Carries s t := .of_eq (congrArg loadView h.besides :)

theorem queueWork_carries {s t : State} (h : QueueWork s t) : Carries s t := coderWork_carries h.coders

theorem tables_of_coders {s t : State} (master : t.master = s.master) (proxy : t.proxy = s.proxy) :
    tablesOf t = tablesOf s := by rw [tablesOf, master, proxy, tablesOf]

theorem followedBy_tables {s t : State} (h : FollowedBy s t) : tablesOf t = tablesOf s :=
  tables_of_coders h.coders.master h.coders.proxy

theorem raiseIf_carries (b : Bool) (n : Notice) (s : State) : Carries s (raiseIf b n s) :=
  queueWork_carries (raiseIf_work b n s)

theorem reportFault_carries (f : FaultReport) (s : State) : Carries s (reportFault f s) :=
  queueWork_carries (reportFault_work f s)

theorem putWriter_carries (st : Stream) (w : Writer) (s : State) : Carries s (putWriter st w s) := .of_eq rfl

/-! ## No load under way -/

/-- No engine reset is in progress, and no burst on the port is one that a reset has outlived. -/
structure Going (s : State) : Prop where
  reset : s.arbiter.resetBurst = false
  state : s.walker.state ≠ .resetting

/-- The stage is one of a LOAD_TABLE that waits for its table or reads its source. -/
def stageLoads : Stage → Bool
  | .inFlight f => f == .loadTable
  | .reading _ => true
  | _ => false

/-- No LOAD_TABLE is under way, and no engine reset. -/
structure Unloaded (s : State) : Prop extends Going s where
  stage : ∀ b, s.walker.block = some b → stageLoads b.stage = false

theorem Unloaded.sound {s : State} (h : Unloaded s) : LoadSound s where
  reset r := by rw [h.reset] at r; cases r
  cleared r := absurd r h.state
  waiting b block stage := by
    have loads := h.stage b block
    rw [stage] at loads
    cases loads
  reading b got block stage := by
    have loads := h.stage b block
    rw [stage] at loads
    cases loads

/-- A walker with a block in hand is in no engine reset (R172). -/
theorem loadSound_going {s : State} {b : Block} (h : LoadSound s) (block : s.walker.block = some b) : Going s := by
  have state : s.walker.state ≠ .resetting := fun r => by
    rw [h.cleared r] at block
    cases block
  exact ⟨Bool.eq_false_iff.mpr fun r => state (h.reset r), state⟩

/-- Outside an engine reset no burst has outlived one (R172, R189). -/
theorem Carries.of_state {s t : State} (state : s.walker.state ≠ .resetting)
    (h : s.arbiter.resetBurst = false → Carries s t) : Carries s t := fun sound =>
  h (Bool.eq_false_iff.mpr fun r => state (sound.reset r)) sound

/-- `t` has the tables of `s`, and no LOAD_TABLE under way if no engine reset is in progress in `s`. -/
structure Unloads (s t : State) : Prop where
  tables : tablesOf t = tablesOf s
  unloaded : Going s → Unloaded t

/-- What the walker does with a block in hand needs to be looked at only outside an engine reset. -/
theorem Unloads.carries {s t : State} {b : Block} (h : Unloads s t) (block : s.walker.block = some b) : Carries s t :=
  fun sound => ⟨h.tables, (h.unloaded (loadSound_going sound block)).sound⟩

theorem Unloads.after {s t u : State} (tables : tablesOf t = tablesOf s) (going : Going s → Going t) (h : Unloads t u) :
    Unloads s u := ⟨h.tables.trans tables, fun g => h.unloaded (going g)⟩

theorem Unloads.ite {s t u : State} {p : Prop} [Decidable p] (h : Unloads s t) (k : Unloads s u) :
    Unloads s (if p then t else u) := by
  split
  · exact h
  · exact k

theorem unloaded_none {s : State} (h : Going s) (block : s.walker.block = none) : Unloaded s :=
  ⟨h, fun b some => by rw [block] at some; cases some⟩

theorem putStage_unloads (g : Stage) (stage : stageLoads g = false) (s : State) : Unloads s (putStage g s) := by
  refine ⟨rfl, fun h => ⟨⟨h.reset, h.state⟩, fun b block => ?_⟩⟩
  obtain ⟨c, -, rfl⟩ := Option.map_eq_some_iff.mp block
  exact stage

theorem requestBurst_going {s : State} (h : Going s) (r : Requester) (b : Burst) : Going (requestBurst r b s) :=
  ⟨h.reset, h.state⟩

theorem goUnlessStopping_ne {w : Walker} {g : WalkerState} (h : g ≠ .resetting) :
    (goUnlessStopping g w).state ≠ .resetting := by
  rw [goUnlessStopping_state]
  split
  · exact nofun
  · exact h

theorem complete_unloads (v : Verdict) (detail : Nat) (s : State) : Unloads s (complete v detail s) := by
  refine ⟨followedBy_tables (complete_followedBy v detail s), fun h => ?_⟩
  unfold complete
  split
  · next none => exact unloaded_none h none
  · have walks : Going (changeWalker (goUnlessStopping .walking) s) := ⟨h.reset, goUnlessStopping_ne nofun⟩
    obtain ⟨going, stage⟩ := (putStage_unloads (.outcome v.code detail s.intake.counter) rfl _).unloaded walks
    exact ⟨requestBurst_going going _ _, stage⟩

theorem goInFlight_unloads (f : Flight) (other : f ≠ .loadTable) (s : State) : Unloads s (goInFlight f s) :=
  .after (t := changeWalker (fun w => { w with state := .waiting }) s) rfl (fun h => ⟨h.reset, nofun⟩)
    (putStage_unloads (.inFlight f) (beq_eq_false_iff_ne.mpr other) _)

theorem goOrAbandon_unloads (f : Flight) (other : f ≠ .loadTable) (s : State) : Unloads s (goOrAbandon f s) :=
  .ite (complete_unloads _ _ s) (goInFlight_unloads f other s)

theorem asks_unloads (r : Requester) (b : Burst) (g : Stage) (stage : stageLoads g = false) (s : State) :
    Unloads s (putStage g (requestBurst r b s)) :=
  .after (t := requestBurst r b s) rfl (fun h => requestBurst_going h r b) (putStage_unloads g stage _)

theorem requestBody_unloads (b : Block) (s : State) : Unloads s (requestBody b s) := asks_unloads _ _ .body rfl s

theorem requestGrantWrite_unloads (b : Block) (n : Nat) (left : List (Nat × Reason)) (s : State) :
    Unloads s (requestGrantWrite b n left s) := by
  unfold requestGrantWrite
  split
  · exact asks_unloads _ _ (.slots _ _) rfl s
  · exact asks_unloads _ _ (.count _) rfl s

theorem handOver_unloads (kind : DirectiveKind) (s : State) : Unloads s (handOver kind s) := by
  cases kind with
  | roll => exact goOrAbandon_unloads .roll nofun s
  | cut => exact goOrAbandon_unloads .cut nofun s
  | _ => exact putStage_unloads .handed rfl s

theorem complete_carries {s t : State} (h : Carries s t) (v : Verdict) (detail : Nat) :
    Carries s (complete v detail t) := by
  refine h.trans ?_
  cases block : t.walker.block with
  | none =>
    have idle : complete v detail t = t := by simp [complete, block]
    rw [idle]
    exact .refl t
  | some b =>
    exact (complete_unloads v detail t).carries block

/-! ## Settling -/

theorem requestBurst_carries (r : Requester) (b : Burst) (s : State) (other : r ≠ .walker) :
    Carries s (requestBurst r b s) := by
  cases r with
  | walker => exact absurd rfl other
  | _ => exact .of_eq rfl

theorem writerRequester_ne (st : Stream) : writerRequester st ≠ .walker := by cases st <;> exact nofun

theorem putSegments_carries (st : Stream) (l : List Segment) (s : State) : Carries s (putSegments st l s) :=
  ((putWriter_carries st _ s).trans (putWriter_carries st _ _)).trans (raiseIf_carries _ _ _)

theorem closeSegment_carries {s t : State} (h : Carries s t) (st : Stream) (r : Reason) :
    Carries s (closeSegment st r t) := by
  unfold closeSegment
  dsimp only
  split
  · exact h
  · exact h.trans (.of_eq rfl)

theorem closeUndone_carries (st : Stream) (r : Reason) (n : Nat) (s : State) : Carries s (closeUndone st r n s) := by
  unfold closeUndone
  dsimp only
  split
  · exact .refl s
  · exact .of_eq rfl

theorem returnUnused_carries (st : Stream) (r : Reason) (c : Bool) (s : State) : Carries s (returnUnused st r c s) := by
  unfold returnUnused
  split
  · exact .refl s
  · exact (putSegments_carries st _ s).trans (.of_eq rfl)

theorem advanceRelinquish_carries (st : Stream) (s : State) : Carries s (advanceRelinquish st s) := by
  unfold advanceRelinquish
  split
  · exact .refl s
  · exact .ite (.refl s) (.ite (complete_carries (putWriter_carries st _ s) _ _)
      (.ite (.refl s) (returnUnused_carries st _ _ s)))

theorem advanceReset_carries (st : Stream) (s : State) : Carries s (advanceReset st s) := by
  unfold advanceReset
  refine .ite (.refl s) ?_
  split
  · exact closeUndone_carries st _ _ s
  · exact returnUnused_carries st _ _ s

theorem takeSegment_carries (st : Stream) (s : State) : Carries s (takeSegment st s) := by
  unfold takeSegment
  refine .ite ?_ (.refl s)
  split
  · exact .refl s
  · exact (putWriter_carries st _ s).trans (putSegments_carries st _ _)

theorem requestWrite_carries (st : Stream) (s : State) : Carries s (requestWrite st s) := by
  unfold requestWrite
  dsimp only
  split
  · exact .ite (requestBurst_carries _ _ s (writerRequester_ne st)) (.refl s)
  · exact .refl s

theorem settleWriter_carries (st : Stream) (s : State) : Carries s (settleWriter st s) := by
  have returns : Carries s (advanceReturns st s) := .ite (advanceReset_carries st s) (advanceRelinquish_carries st s)
  have refreshed : ∀ u, Carries u (refreshState st u) := fun u =>
    (putWriter_carries st _ u).trans (raiseIf_carries _ _ _)
  exact ((returns.trans (takeSegment_carries st _)).trans (requestWrite_carries st _)).trans (refreshed _)

theorem pageRequest_carries (s : State) : Carries s (pageRequest s) := by
  unfold pageRequest
  refine .ite (.refl s) ?_
  split
  · exact .ite (.of_eq rfl) (.refl s)
  · exact .ite (.of_eq rfl) (.of_eq rfl)

theorem grantPort_carries (s : State) : Carries s (grantPort s) := by
  unfold grantPort
  refine .ite (.refl s) ?_
  split
  · exact .refl s
  · exact .ite (.of_eq rfl) (.of_eq rfl)

/-- Settling completes directives and requests bursts of the writers and the Page Writer. -/
theorem settle_carries {s t : State} (h : Carries s t) : Carries s (settle t) := by
  have drained : ∀ u, Carries u (testDrained u) := fun u => .ite (complete_carries (.refl u) _ _) (.refl u)
  exact ((((h.trans (settleWriter_carries .master t)).trans (settleWriter_carries .proxy _)).trans (drained _)).trans
    (pageRequest_carries _)).trans (grantPort_carries _)

/-! ## Chains -/

theorem takeBlock_unloaded {s : State} (reset : s.arbiter.resetBurst = false) (a : Nat) : Unloaded (takeBlock a s) := by
  refine ⟨⟨reset, goUnlessStopping_ne nofun⟩, fun b block => ?_⟩
  have hand : (takeBlock a s).walker.block = some ⟨a, [], [], .header, false⟩ := by
    simp [takeBlock, changeWalker, goUnlessStopping_state]
  rw [hand] at block
  cases block
  rfl

theorem endChain_unloaded {s : State} (reset : s.arbiter.resetBurst = false) : Unloaded (endChain s) := by
  unfold endChain
  dsimp only
  split
  · exact takeBlock_unloaded (by exact reset) _
  · exact unloaded_none ⟨reset, nofun⟩ rfl

theorem endChain_tables (s : State) : tablesOf (endChain s) = tablesOf s := by
  unfold endChain
  dsimp only
  split
  · exact tables_of_coders (by simp [startChain, takeBlock]) (by simp [startChain, takeBlock])
  · exact tables_of_coders (by simp) (by simp)

theorem endChain_carries {s : State} (reset : s.arbiter.resetBurst = false) : Carries s (endChain s) :=
  fun _ => ⟨endChain_tables s, (endChain_unloaded reset).sound⟩

theorem endChainFault_carries {s : State} (reset : s.arbiter.resetBurst = false) (kind : FaultKind) (a : Nat) (x : Frame) :
    Carries s (endChainFault kind a x s) :=
  (reportFault_carries _ s).trans (endChain_carries reset)

theorem actOn_carries {s : State} (reset : s.arbiter.resetBurst = false) (c : Continuation) : Carries s (actOn c s) := by
  cases c with
  | chainEnd => exact endChain_carries reset
  | next a =>
    exact .ite (endChainFault_carries reset _ _ _) (.ite (endChainFault_carries reset _ _ _)
      fun _ => ⟨rfl, (takeBlock_unloaded reset a).sound⟩)

theorem haltAt_carries {s : State} (reset : s.arbiter.resetBurst = false) (c : Continuation) : Carries s (haltAt c s) :=
  fun _ => ⟨rfl, (unloaded_none (s := haltAt c s) ⟨reset, nofun⟩ rfl).sound⟩

theorem blockComplete_carries {s : State} (reset : s.arbiter.resetBurst = false) (b : Block) (code : Nat) (x : Frame) :
    Carries s (blockComplete b code x s) := by
  have recorded : Carries s (changeWalker (fun w =>
      { w with lastBlock := some (b.address, x), lastTag := b.hostTag }) s) := .of_eq rfl
  have told := recorded.trans (raiseIf_carries (b.flag 2) .chain _)
  have still : (raiseIf (b.flag 2) .chain (changeWalker (fun w =>
      { w with lastBlock := some (b.address, x), lastTag := b.hostTag }) s)).arbiter.resetBurst = false := by
    rw [arbiter_raiseIf]
    exact reset
  have unasked : ∀ u, Carries u (changeWalker (fun w => { w with haltRequest := false }) u) := fun _ => .of_eq rfl
  exact .ite ((told.trans (unasked _)).trans (endChain_carries still)) (.ite (told.trans (haltAt_carries still _))
    (told.trans (actOn_carries still _)))

theorem outcomeWritten_carries {s : State} (reset : s.arbiter.resetBurst = false) : Carries s (outcomeWritten s) := by
  unfold outcomeWritten
  split
  · exact .refl s
  · split
    · exact blockComplete_carries reset _ _ _
    · exact .refl s

theorem takeEntry_carries (v : BitVec 32) (s : State) : Carries s (takeEntry v s) := by
  have refused : ∀ r, Carries s (refuseEntry r s) := fun _ => .of_eq rfl
  have hold : Carries s (holdEntry (16 * v.toNat) s) := .ite (refused _) (.of_eq rfl)
  unfold takeEntry
  refine .ite (refused _) (.ite (refused _) ?_)
  split
  · exact refused _
  · next idle =>
    refine .of_state (by rw [idle]; exact nofun) fun unreset _ => ⟨rfl, (takeBlock_unloaded ?_ _).sound⟩
    exact unreset
  all_goals exact hold

end Sys2Proof.Proofs
end

section
/-! SUPPORT. What the burst answers, the directives and the other commands leave of the two tables and of a LOAD_TABLE
under way. -/

namespace Sys2Proof.Proofs

open Sys2Proof.Machine Sys2Proof.Laws

/-! ## The answers to bursts -/

theorem onPort_some {r : Requester} {kind : BurstKind} {b : Burst} {s : State} (h : s.onPort r kind = some b) :
    s.arbiter.port = some r ∧ s.arbiter.bursts.get r = some b ∧ b.kind = kind := by
  unfold State.onPort State.inProgress at h
  split at h
  · next port =>
    obtain ⟨burst, same⟩ := Option.filter_eq_some_iff.mp h
    exact ⟨beq_iff_eq.mp port, burst, beq_iff_eq.mp same⟩
  · cases h

/-- Dropping a walker's burst that is no table read's leaves a load under way: one that reads holds such a burst. -/
theorem dropBurst_carries {r : Requester} {b : Burst} {s : State} (burst : s.arbiter.bursts.get r = some b)
    (other : b.kind ≠ .table) : Carries s (dropBurst r s) := by
  cases r with
  | walker =>
    refine fun sound => ⟨rfl, ⟨sound.reset, sound.cleared, sound.waiting, fun c got block stage => ?_⟩⟩
    obtain ⟨-, -, u, held, table, -⟩ := sound.reading c got block stage
    cases burst.symm.trans held
    exact absurd table other
  | _ => exact .of_eq rfl

/-- While an engine reset waits for its burst to end, the walker holds no block, and nothing is lost with the burst. -/
theorem dropBurst_orphan {r : Requester} {s : State} (reset : s.arbiter.resetBurst = true) : Carries s (dropBurst r s) := by
  refine fun sound => ⟨rfl, ⟨sound.reset, sound.cleared, sound.waiting, fun c got block stage => ?_⟩⟩
  cases (sound.cleared (sound.reset reset)).symm.trans block

theorem freePort_carries (s : State) : Carries s (freePort s) :=
  fun sound => ⟨rfl, ⟨nofun, sound.cleared, sound.waiting, sound.reading⟩⟩

theorem dropBurst_freePort (r : Requester) (s : State) : dropBurst r (freePort s) = freePort (dropBurst r s) := rfl

theorem orphan_reset {r : Requester} {s : State} (h : s.orphan r = true) : s.arbiter.resetBurst = true :=
  (Bool.and_eq_true_iff.mp h).1

/-- The requester's burst is gone and the port is free: what an owner finds that acts on an answer. -/
structure Answered (r : Requester) (s : State) : Prop where
  reset : s.arbiter.resetBurst = false
  burst : s.arbiter.bursts.get r = none

theorem answerOk_carries {act : Burst → State → State} {r : Requester} (kind : BurstKind) (other : kind ≠ .table)
    (h : ∀ b u, Answered r u → Carries u (act b u)) (s : State) : Carries s (answerOk r kind act s) := by
  unfold answerOk
  split
  · exact .refl s
  · next b port =>
    obtain ⟨-, burst, same⟩ := onPort_some port
    have ended : Carries s (endBurst r b s) :=
      ((dropBurst_carries burst (same ▸ other)).trans (freePort_carries _)).trans (.of_eq rfl)
    exact settle_carries (.ite ended (ended.trans (h b _ ⟨rfl, Quad.get_set_same _ _ _⟩)))

theorem countRelinquished_carries (r : Result) (s : State) : Carries s (countRelinquished r s) :=
  .ite (putWriter_carries _ _ s) (.refl s)

theorem segmentReturned_carries (s : State) : Carries s (segmentReturned s) := by
  unfold segmentReturned
  split
  · exact .refl s
  · next r rest _ =>
    have returned : Carries s (freeGrants (raise (.returned r.stream)
        { s with page := { s.page with results := rest } })) := .of_eq rfl
    exact returned.trans (countRelinquished_carries r _)

theorem resultSlotWritten_carries (s : State) : Carries s (resultSlotWritten s) := by
  unfold resultSlotWritten
  split
  · exact .refl s
  · exact .of_eq rfl

theorem writerAdvanced_carries (st : Stream) (n : Nat) (s : State) : Carries s (writerAdvanced st n s) := by
  unfold writerAdvanced
  dsimp only
  split
  · next e c _ _ =>
    have removed : ∀ w, Carries s (if decide (e.size ≤ (s.writer st).written + n) = true
        then removeFront st e (putWriter st w s) else putWriter st w s) := fun w =>
      .ite ((putWriter_carries st w s).trans (queueWork_carries (removeFront_work st e _))) (putWriter_carries st w s)
    split
    · exact closeSegment_carries (removed _) _ _
    · exact .ite (closeSegment_carries (removed _) _ _) (removed _)
  · exact .refl s

theorem writerBurstDone_carries (s : State) : Carries s (writerBurstDone s) := by
  unfold writerBurstDone
  split
  · exact .refl s
  · exact answerOk_carries .entry nofun (fun _ u _ => writerAdvanced_carries _ _ u) s

theorem resultFailed_carries (b : Burst) (s : State) : Carries s (resultFailed b s) := by
  unfold resultFailed
  split
  · exact .refl s
  · next r _ _ =>
    have counted : Carries s (if b.kind = .resultSlot then countReturned r.segment.block s else s) :=
      .ite (.of_eq rfl) (.refl s)
    exact (counted.trans (reportFault_carries _ _)).trans (segmentReturned_carries _)

theorem writerFailed_carries (st : Stream) (kind : FaultKind) (b : Burst) (s : State) :
    Carries s (writerFailed st kind b s) :=
  ((closeUndone_carries st _ _ s).trans (putWriter_carries st _ _)).trans (reportFault_carries _ _)

/-- A burst that fails is the walker's, and its chain ends, or leaves the walker's burst as it is (R138 to R140). -/
theorem burstFailed_carries (r : Requester) (kind : FaultKind) (b : Burst) (s : State) :
    Carries s (burstFailed r kind b (dropBurst r (freePort s))) := by
  have dropped : r ≠ .walker → Carries s (dropBurst r (freePort s)) := fun other =>
    (freePort_carries s).trans (by
      cases r with
      | walker => exact absurd rfl other
      | _ => exact .of_eq rfl)
  cases r with
  | walker => exact fun _ => ⟨endChain_tables _, (endChain_unloaded rfl).sound⟩
  | page => exact (dropped nofun).trans (.ite (reportFault_carries _ _) (resultFailed_carries b _))
  | master => exact (dropped nofun).trans (writerFailed_carries .master kind b _)
  | proxy => exact (dropped nofun).trans (writerFailed_carries .proxy kind b _)

theorem answerRetry_carries (s : State) : Carries s (answerRetry s) := by
  unfold answerRetry
  split
  · exact .refl s
  · next r b _ =>
    have counted : Carries s (countRetry s) := .of_eq rfl
    have waits : ∀ u, Carries u (waitAgain r u) := fun u =>
      Carries.trans (t := { u with arbiter := { u.arbiter with
        attempts := u.arbiter.attempts.set (u.arbiter.attempts.get r + 1) r } }) (.of_eq rfl) (freePort_carries _)
    refine settle_carries ?_
    unfold retried
    dsimp only
    split
    · next orphan => exact (counted.trans (dropBurst_orphan (orphan_reset orphan))).trans (freePort_carries _)
    · exact .ite (counted.trans (burstFailed_carries r _ b _)) (counted.trans (waits _))

theorem answerError_carries (s : State) : Carries s (answerError s) := by
  unfold answerError
  split
  · exact .refl s
  · next r b _ =>
    have forgotten : Carries s { s with shared := forgetBytes s.shared b.address b.data.length } := .of_eq rfl
    refine settle_carries ?_
    unfold errored
    dsimp only
    split
    · next orphan => exact (forgotten.trans (dropBurst_orphan (orphan_reset orphan))).trans (freePort_carries _)
    · exact forgotten.trans (burstFailed_carries r _ b _)

/-! ## Fetching -/

theorem headerArrived_carries (bytes : List Byte) (s : State) : Carries s (headerArrived bytes s) := by
  unfold headerArrived
  split
  · exact .refl s
  · next b block =>
    have fetched : ∀ {c : Block} {u : State}, Unloads (changeBlock (fun _ => c) s) u → Unloads s u := fun {c _} h =>
      .after (t := changeBlock (fun _ => c) s) rfl (fun going => ⟨going.reset, going.state⟩) h
    refine Unloads.carries (fetched (c := { b with header := delivered 32 bytes }) ?_) block
    unfold headerChecked
    dsimp only
    split
    · exact complete_unloads _ _ _
    · exact .ite (.ite (handOver_unloads _ _) (requestBody_unloads _ _)) (complete_unloads _ _ _)

/-- More bytes behind a block leave the kind it has. -/
theorem kind_body (b : Block) (more : List Byte) (kind : b.kind ≠ none) :
    ({ b with body := b.body ++ more } : Block).kind = b.kind := by
  have some : b.header ++ b.body ≠ [] := fun empty => kind (by simp [Block.kind, Block.u8, Block.byteAt, empty, kindOfCode])
  have byte : ({ b with body := b.body ++ more } : Block).byteAt 0 = b.byteAt 0 := by
    unfold Block.byteAt
    rw [← List.append_assoc, List.getD_append _ _ _ _ (List.length_pos_of_ne_nil some)]
  rw [Block.kind, Block.u8, byte]
  rfl

/-- A body that has arrived whole of no known kind stays with the walker; no load is then under way in it. -/
theorem bodyArrived_carries {s : State} (answered : Answered .walker s) (n : Nat) (bytes : List Byte) :
    Carries s (bodyArrived n bytes s) := by
  unfold bodyArrived
  split
  · exact .refl s
  · next b block =>
    have fetched : ∀ {c : Block} {u : State}, Unloads (changeBlock (fun _ => c) s) u → Carries s u := fun {c _} h =>
      Unloads.carries (.after (t := changeBlock (fun _ => c) s) rfl (fun going => ⟨going.reset, going.state⟩) h) block
    dsimp only
    refine .ite (fetched (requestBody_unloads _ _)) ?_
    split
    · exact fetched (handOver_unloads _ _)
    · next kind =>
      have hand : (changeBlock (fun _ => { b with body := b.body ++ delivered n bytes }) s).walker.block
          = some { b with body := b.body ++ delivered n bytes } := by simp [changeBlock, changeWalker, block]
      refine fun sound => ⟨rfl, ?_⟩
      have going := loadSound_going sound block
      refine ⟨sound.reset, fun r => absurd r going.state, fun c some stage => ?_, fun c got some stage => ?_⟩
      · cases hand.symm.trans some
        obtain ⟨loads, -⟩ := sound.waiting b block stage
        rw [kind_body b _ (by simp [loads]), loads] at kind
        cases kind
      · cases hand.symm.trans some
        obtain ⟨-, -, u, held, -⟩ := sound.reading b got block stage
        cases answered.burst.symm.trans held

theorem refusedSlotWritten_carries (s : State) : Carries s (refusedSlotWritten s) := by
  unfold refusedSlotWritten
  split
  · exact .refl s
  · next b block =>
    split
    · exact (requestGrantWrite_unloads _ _ _ s).carries block
    · exact .refl s

theorem returnedCountWritten_carries (s : State) : Carries s (returnedCountWritten s) := by
  unfold returnedCountWritten
  split
  · exact .refl s
  · split
    · exact complete_carries (.refl s) _ _
    · exact .refl s

/-! ## The requests of CONTROL -/

theorem takeHalt_carries (s : State) : Carries s (takeHalt s) := by
  unfold takeHalt
  split
  case h_1 | h_2 => exact .of_eq rfl
  all_goals exact .refl s

theorem takeResume_carries (s : State) : Carries s (takeResume s) := by
  unfold takeResume
  split
  · next c halted _ =>
    refine settle_carries (.of_state (by rw [halted]; exact nofun) fun unreset => ?_)
    have given : Carries s (changeWalker (fun w => { w with continuation := none }) s) := .of_eq rfl
    exact given.trans (actOn_carries (s := changeWalker _ s) unreset c)
  · exact .refl s

theorem withdrawFlight_carries (f : Flight) (s : State) : Carries s (withdrawFlight f s) := by
  cases f with
  | stopIntake => exact .ite (.of_eq rfl) (.refl s)
  | relinquish st => exact .of_eq rfl
  | _ => exact .refl s

theorem goStopping_carries {s : State} (state : s.walker.state ≠ .resetting) : Carries s (goStopping s) :=
  .of_state state fun unreset sound => by
    refine ⟨rfl, fun reset => ?_, nofun, sound.waiting, sound.reading⟩
    cases unreset.symm.trans reset

theorem takeStop_carries (s : State) : Carries s (takeStop s) := by
  unfold takeStop
  split
  · next waiting =>
    have going := goStopping_carries (s := s) (by rw [waiting]; exact nofun)
    split
    · exact settle_carries (complete_carries (going.trans (withdrawFlight_carries _ _)) _ _)
    · exact going
  · next walking => exact goStopping_carries (by rw [walking]; exact nofun)
  · next halted =>
    refine settle_carries (.of_state (by rw [halted]; exact nofun) fun unreset => ?_)
    have emptied : Carries s (changeWalker (fun w => { w with pendingEntry := none }) s) := .of_eq rfl
    exact emptied.trans (endChain_carries unreset)
  all_goals exact .refl s

/-! ## Directives -/

theorem inHand_of_handed {kind : DirectiveKind} {b : Block} {s : State} (h : s.handedBlock kind = some b) :
    InHand kind b s := by
  obtain ⟨block, taken⟩ := Option.filter_eq_some_iff.mp h
  obtain ⟨stage, same⟩ := Bool.and_eq_true_iff.mp taken
  exact ⟨block, beq_iff_eq.mp stage, beq_iff_eq.mp same⟩

theorem takeDirective_carries {act : Block → State → State} {kind : DirectiveKind}
    (h : ∀ b s, InHand kind b s → Carries s (act b s)) (s : State) : Carries s (takeDirective kind act s) := by
  unfold takeDirective
  split
  · exact .refl s
  · next b hand => exact settle_carries (h b s (inHand_of_handed hand))

theorem answer_carries (v : Verdict) (detail : Nat) (s : State) : Carries s (complete v detail s) :=
  complete_carries (.refl s) v detail

theorem setupDirective_carries (b : Block) (s : State) : Carries s (setupDirective b s) := by
  have taken : ∀ g filter a, Carries s (setupTaken g filter a s) := fun g filter a =>
    Carries.trans (t := { s with
      intake := { s.intake with geometry := some g, timecode := legalLabel (rateOf g.code) s.intake.timecode }
      proxy := { s.proxy with filter := filter }
      page := { s.page with address := some a }
      governor := governorSetup (rateOf g.code) s.governor
      queue := { s.queue with limit := prerollLimit (some (rateOf g.code)) s.queue.depth } }) (.of_eq rfl)
      (queueWork_carries ((discardHeld_work _).trans (floorAtNext_work _)))
  unfold setupDirective
  split
  · exact answer_carries _ _ s
  · exact complete_carries (taken _ _ _) _ _

theorem tuneDepth_carries (f : TuneFields) (s : State) : Carries s (tuneDepth f s) :=
  Carries.trans (t := { s with
      queue := { s.queue with depth := min f.depth 30, limit := prerollLimit s.rate? (min f.depth 30) } })
    (.of_eq rfl) (queueWork_carries (depthEffects_work _ _ _))

theorem tuneHighMark_carries (f : TuneFields) (s : State) : Carries s (tuneHighMark f s) :=
  .ite (.refl s) (Carries.trans (t := { s with queue := { s.queue with highMark := clamp 50 95 f.highMark } })
    (.of_eq rfl) (queueWork_carries ((putQueue_work .master _ _).trans (putQueue_work .proxy _ _))))

theorem tuneTally_carries (f : TuneFields) (s : State) : Carries s (tuneTally f s) := by
  unfold tuneTally
  dsimp only
  split
  · exact .refl s
  · exact .of_eq rfl

theorem tuneWatermark_carries (f : TuneFields) (s : State) : Carries s (tuneWatermark f s) := by
  have refreshed : ∀ st u, Carries u (refreshBelow st u) := fun st u =>
    (putWriter_carries st _ u).trans (raiseIf_carries _ _ _)
  exact .ite (.refl s) (Carries.trans (t := { s with writers := { s.writers with watermark := min f.watermark 47 } })
    (.of_eq rfl) ((refreshed .master _).trans (refreshed .proxy _)))

theorem tuneTaken_carries (f : TuneFields) (s : State) : Carries s (tuneTaken f s) := by
  have settings : Carries s (tuneGovernor f (tuneMaster f s)) := .of_eq rfl
  have queues := (settings.trans (tuneDepth_carries f _)).trans (tuneHighMark_carries f _)
  have gaps : ∀ u, Carries u (tuneGap f (tuneBlink f u)) := fun _ => .of_eq rfl
  have last : ∀ u, Carries u (tuneTolerance f (tunePriorities f u)) := fun _ => .of_eq rfl
  exact (((queues.trans (tuneTally_carries f _)).trans (gaps _)).trans (tuneWatermark_carries f _)).trans (last _)

theorem tuneDirective_carries (b : Block) (s : State) : Carries s (tuneDirective b s) :=
  complete_carries (tuneTaken_carries _ s) _ _

theorem linesDirective_carries (b : Block) (s : State) : Carries s (linesDirective b s) := by
  have taken : ∀ l, Carries s (linesTaken l s) := fun l =>
    Carries.trans (t := { s with lines := { s.lines with
      lines := l, sync := syncAfter (syncLine s.lines.lines) (syncLine l) s.lines.sync } }) (.of_eq rfl)
      (raiseIf_carries _ _ _)
  unfold linesDirective
  split
  · exact answer_carries _ _ s
  · exact .ite (answer_carries _ _ s) (complete_carries (taken _) _ _)

/-- The walker begins to read the source of a load that passes its checks, or goes on reading it (R32, R174). -/
theorem requestSource_sound {b : Block} {got : List Byte} {s : State} (going : Going s)
    (block : s.walker.block = some b) (fits : loadFits b.loadFields = true)
    (more : got.length < b.loadFields.sourceLength) : LoadSound (requestSource b got s) := by
  have hand : (requestSource b got s).walker.block = some { b with stage := .reading got } := by
    simp [requestSource, putStage, changeBlock, changeWalker, requestBurst, goUnlessStopping_state, block]
  refine ⟨fun r => (nomatch going.reset.symm.trans r), fun r => absurd r (goUnlessStopping_ne nofun), fun c some stage => ?_, fun c before some stage => ?_⟩
  · cases hand.symm.trans some
    cases stage
  · cases hand.symm.trans some
    cases stage
    exact ⟨fits, more, _, rfl, rfl, rfl⟩

theorem loadFits_length {f : LoadFields} (fits : loadFits f = true) : 0 < f.sourceLength := by
  unfold loadFits at fits
  unfold LoadFields.sourceLength
  grind

theorem loadDirective_carries {b : Block} {s : State} (hand : InHand .loadTable b s) : Carries s (loadDirective b s) := by
  obtain ⟨block, -, kind⟩ := hand
  unfold loadDirective
  split
  · next fits =>
    split
    · refine .ite (answer_carries _ _ s) fun sound => ⟨followedBy_tables (goInFlight_followedBy _ s), ?_⟩
      have going := loadSound_going sound block
      have flies : (goInFlight .loadTable s).walker.block = some { b with stage := .inFlight .loadTable } := by
        simp [goInFlight, putStage, changeBlock, changeWalker, block]
      refine ⟨fun r => (nomatch going.reset.symm.trans r), nofun, fun c some _ => ?_, fun c got some stage => ?_⟩
      · cases flies.symm.trans some
        exact ⟨kind, fits⟩
      · cases flies.symm.trans some
        cases stage
    · exact fun sound => ⟨followedBy_tables (requestSource_followedBy b [] s),
        requestSource_sound (loadSound_going sound block) block fits (loadFits_length fits)⟩
  · exact answer_carries _ _ s

theorem grantDirective_carries {b : Block} {s : State} (block : s.walker.block = some b) :
    Carries s (grantDirective b s) := by
  have taken : ∀ st, Carries s (grantTaken b st s) := fun st => by
    have asked : ∀ (u : State) g n left, Unloads u (requestGrantWrite b n left (changeBlock (fun c => { c with granted := true })
        { u with writers := { u.writers with grants := g } })) := fun u g n left =>
      .after (t := changeBlock (fun c => { c with granted := true }) { u with writers := { u.writers with grants := g } })
        rfl (fun going => ⟨going.reset, going.state⟩) (requestGrantWrite_unloads b n left _)
    have hand : ∀ l, (putSegments st l s).walker.block = some b := fun l => by
      unfold putSegments refreshBelow
      rw [walker_raiseIf]
      exact block
    exact (putSegments_carries st _ s).trans ((asked _ _ _ _).carries (hand _))
  unfold grantDirective
  split
  · exact answer_carries _ _ s
  · exact taken _

theorem beginRelinquish_carries (st : Stream) (close : Bool) (s : State) : Carries s (beginRelinquish st close s) := by
  have withdrawn : ∀ u, Carries u (withdrawBurst (writerRequester st) u) := fun u =>
    .ite (.refl u) (by cases st <;> exact .of_eq rfl)
  unfold beginRelinquish
  dsimp only
  split
  · exact .ite (putWriter_carries _ _ s) (.ite (putWriter_carries _ _ s)
      (closeSegment_carries ((putWriter_carries _ _ s).trans (withdrawn _)) _ _))
  · exact putWriter_carries _ _ s

theorem relinquishDirective_carries {b : Block} {s : State} (block : s.walker.block = some b) :
    Carries s (relinquishDirective b s) := by
  unfold relinquishDirective
  split
  · exact answer_carries _ _ s
  · exact .ite (answer_carries _ _ s)
      (((goInFlight_unloads (.relinquish _) nofun s).carries block).trans (beginRelinquish_carries _ _ _))

theorem startDirective_carries (b : Block) (s : State) : Carries s (startDirective b s) := by
  have started : Carries s (startIntake s) :=
    Carries.trans (t := { s with
      intake := { s.intake with state := .running }, governor := startCredit s.governor }) (.of_eq rfl)
      (queueWork_carries ((discardHeld_work _).trans (floorAtNext_work _)))
  unfold startDirective
  split
  · exact .ite (complete_carries started _ _) (answer_carries _ _ s)
  all_goals exact answer_carries _ _ s

theorem goStopped_carries (s : State) : Carries s (goStopped s) := .of_eq rfl

theorem stopDirective_carries {b : Block} {s : State} (block : s.walker.block = some b) :
    Carries s (stopDirective b s) := by
  have stopped : Carries s (stopIntake s) :=
    .ite (complete_carries (goStopped_carries s) _ _) (.ite (answer_carries _ _ s)
      (Unloads.carries (.after (t := { s with intake := { s.intake with state := .stopping } }) rfl
        (fun going => ⟨going.reset, going.state⟩) (goInFlight_unloads .stopIntake nofun _)) block))
  unfold stopDirective
  split
  case h_3 => exact .ite (answer_carries _ _ s) stopped
  all_goals exact answer_carries _ _ s

theorem timecodeDirective_carries (b : Block) (s : State) : Carries s (timecodeDirective b s) := by
  have put : ∀ l, Carries s (putLabel l s) := fun _ => .of_eq rfl
  unfold timecodeDirective
  split
  · exact answer_carries _ _ s
  · exact .ite (.ite (complete_carries (put _) _ _) (complete_carries (put _) _ _)) (answer_carries _ _ s)

theorem waitDirective_carries {b : Block} {s : State} (block : s.walker.block = some b) :
    Carries s (waitDirective b s) :=
  .ite (.ite (answer_carries _ _ s) ((goOrAbandon_unloads (.frames _) nofun s).carries block))
    (.ite (.ite (answer_carries _ _ s) ((goOrAbandon_unloads .drained nofun s).carries block)) (answer_carries _ _ s))

/-! ## Clip Control -/

theorem openClip_carries (k : Nat) (first : Frame) (s : State) : Carries s (openClip k first s) := by
  have placed : Carries s (placeClip k (newClip first s) s) := .of_eq rfl
  exact placed.trans (queueWork_carries ((((commitFrom_work _ _ _).trans (moveMarks_work _ _ _)).trans
    (clipEvent_work _ _ _)).trans (lampOn_work _)))

theorem rollDirective_carries (s : State) : Carries s (rollDirective s) := by
  unfold rollDirective
  split
  case h_4 => exact complete_carries (openClip_carries _ _ s) _ _
  all_goals exact answer_carries _ _ s

theorem rollLine_carries (s : State) : Carries s (rollLine s) := by
  unfold rollLine
  split
  · exact .refl s
  · exact queueWork_carries (clipEvent_work _ _ s)
  · exact queueWork_carries (clipEvent_work _ _ s)
  · exact openClip_carries _ _ s

theorem cutDirective_carries (s : State) : Carries s (cutDirective s) := by
  unfold cutDirective
  split
  · exact answer_carries _ _ s
  · exact complete_carries (queueWork_carries (cutClip_work _ s)) _ _

theorem cutLine_carries (s : State) : Carries s (cutLine s) := by
  unfold cutLine
  split
  · exact .refl s
  · exact queueWork_carries (cutClip_work _ s)

theorem dropRequest_carries (n : LineNo) (s : State) : Carries s (dropRequest n s) := .of_eq rfl

theorem takeRoll_carries (source : Source) (s : State) : Carries s (takeRoll source s) := by
  cases source with
  | directive => exact .ite (settle_carries (rollDirective_carries s)) (.refl s)
  | line n => exact .ite (settle_carries ((dropRequest_carries n s).trans (rollLine_carries _))) (.refl s)

theorem takeCut_carries (source : Source) (s : State) : Carries s (takeCut source s) := by
  cases source with
  | directive => exact .ite (settle_carries (cutDirective_carries s)) (.refl s)
  | line n => exact .ite (settle_carries ((dropRequest_carries n s).trans (cutLine_carries _))) (.refl s)

theorem takeToggle_carries (n : LineNo) (s : State) : Carries s (takeToggle n s) :=
  .ite (settle_carries ((dropRequest_carries n s).trans (.ite (cutLine_carries _) (rollLine_carries _)))) (.refl s)

theorem takeMark_carries (kind : MarkKind) (source : Source) (s : State) : Carries s (takeMark kind source s) := by
  have listed : ∀ u, Carries u (markListed u) := fun u =>
    (queueWork_carries (raise_work .mark u)).trans (.ite (.of_eq rfl) (.refl _))
  have hold : ∀ m, Carries s (holdMark m s) := fun _ => .ite (.of_eq rfl) (.of_eq rfl)
  have changed : ∀ n f, Carries s (changeClip n f s) := fun n f => queueWork_carries (changeClip_work n f s)
  unfold takeMark
  split
  · exact (changed _ _).trans (listed _)
  · exact changed _ _
  · exact (hold _).trans (listed _)
  · exact .of_eq rfl

theorem takeMarkFrom_carries (source : Source) (s : State) : Carries s (takeMarkFrom source s) := by
  unfold takeMarkFrom
  split
  · split
    · exact .refl s
    · refine settle_carries ?_
      unfold markDirective
      split
      · exact answer_carries _ _ s
      · exact complete_carries (takeMark_carries _ _ s) _ _
  · split
    · exact settle_carries ((dropRequest_carries _ s).trans (takeMark_carries _ _ _))
    · exact .refl s

theorem blinkExpired_carries (s : State) : Carries s (blinkExpired s) := by
  unfold blinkExpired
  split
  · exact .refl s
  · exact .of_eq rfl

/-! ## Event lines -/

theorem changeSync_carries (f : SyncCapture → SyncCapture) (s : State) : Carries s (changeSync f s) := .of_eq rfl

theorem judge_carries (r : CaptureResult) (s : State) : Carries s (judge r s) :=
  (changeSync_carries _ s).trans (raiseIf_carries _ _ _)

theorem syncEdge_carries (time : Nat) (s : State) : Carries s (syncEdge time s) := by
  unfold syncEdge
  split
  · exact (changeSync_carries _ s).trans (judge_carries _ _)
  · exact .refl s

theorem changeLine_carries (n : LineNo) (time : Nat) (before after : Line) (s : State) :
    Carries s (changeLine n time before after s) := by
  have hand : ∀ u, Carries u (handEdge n after after.filtered time u) := fun u => by
    unfold handEdge
    split
    · exact .refl u
    case h_6 => exact syncEdge_carries time u
    all_goals exact .of_eq rfl
  have changed : Carries s { s with lines := { s.lines with
      lines := changeAt (fun _ => after) n.val s.lines.lines } } := .of_eq rfl
  exact .ite ((changed.trans (queueWork_carries (raise_work _ _))).trans (hand _)) changed

theorem rawChange_carries (n : LineNo) (drive : Option Level) (time : Nat) (s : State) :
    Carries s (rawChange n drive time s) := by
  unfold rawChange
  split
  · exact .refl s
  · exact settle_carries (changeLine_carries n time _ _ s)

theorem filterExpired_carries (n : LineNo) (time : Nat) (s : State) : Carries s (filterExpired n time s) := by
  unfold filterExpired
  split
  · exact .refl s
  · exact .ite (settle_carries (changeLine_carries n time _ _ s)) (.refl s)

/-! ## Registers and engine reset -/

theorem takeFreeze_carries (level : Bool) (s : State) : Carries s (takeFreeze level s) := by
  have withdrawn : Carries s (if rewriteWaits s then withdrawBurst .page s else s) :=
    .ite (.ite (.refl s) (.of_eq rfl)) (.refl s)
  have frozen : ∀ u : State, Carries u { u with notices := { u.notices with freeze := true } } := fun _ => .of_eq rfl
  exact .ite (.refl s) (settle_carries (.ite (withdrawn.trans (frozen _)) (.of_eq rfl)))

/-- An engine reset begins with the walker's block gone (R172), whatever was under way. -/
theorem beginReset_carries (s : State) : Carries s (beginReset s) := by
  have begun : Carries s (resetWalker (resetWriters (resetClips (resetPictures s)))) := fun _ =>
    ⟨rfl, fun _ => rfl, fun _ => rfl, nofun, nofun⟩
  have sync : ∀ u, Carries u (resetSync u) := fun u => (changeSync_carries _ u).trans (raiseIf_carries _ _ _)
  exact begun.trans (sync _)

theorem completeReset_carries {s : State} (resetting : s.walker.state = .resetting) (may : resetMayComplete s = true) :
    Carries s (completeReset s) := fun sound => by
  have unreset : s.arbiter.resetBurst = false := by
    simp only [resetMayComplete, Bool.and_eq_true, Bool.not_eq_true'] at may
    exact may.1.1.1.1.1
  exact ⟨rfl, (unloaded_none (s := completeReset s) ⟨unreset, nofun⟩ (sound.cleared resetting)).sound⟩

theorem engineReset_carries (s : State) : Carries s (engineReset s) := by
  have resetting : (beginReset s).walker.state = .resetting := by
    unfold beginReset resetSync
    rw [walker_raiseIf]
    rfl
  unfold engineReset
  refine .ite (.refl s) (settle_carries ?_)
  split
  · next may => exact (beginReset_carries s).trans (completeReset_carries resetting may)
  · exact beginReset_carries s

theorem engineResetComplete_carries (s : State) : Carries s (engineResetComplete s) := by
  unfold engineResetComplete
  split
  · next both =>
    obtain ⟨resetting, may⟩ := Bool.and_eq_true_iff.mp both
    exact settle_carries (completeReset_carries (beq_iff_eq.mp resetting) may)
  · exact .refl s

end Sys2Proof.Proofs
end

section
/-! SUPPORT. What the pictures' commands leave of the two tables and of a load under way, what the commands that write
a table put there, and so that every step keeps the tables and a load under way (R31, R32, R46 to R48). -/

namespace Sys2Proof.Proofs

open Sys2Proof.Machine Sys2Proof.Laws

/-! ## Pictures -/

theorem runCoders_carries {s t : State} (h : Carries s t) : Carries s (runCoders t) :=
  h.trans (coderWork_carries (runCoders_work t))

theorem recordGap_carries (g : Frame) (label : Label) (s : State) : Carries s (recordGap g label s) := .of_eq rfl

theorem endMalformed_carries (a : Arrival) (i : Nat) (s : State) : Carries s (endMalformed a i s) := by
  have counted : Carries s { putSlot i Slot.empty (clearArrival s) with intake :=
      { (putSlot i Slot.empty (clearArrival s)).intake with
        malformed := countUp countMax (putSlot i Slot.empty (clearArrival s)).intake.malformed 1 } } := .of_eq rfl
  exact ((counted.trans (queueWork_carries (raise_work _ _))).trans (reportFault_carries _ _)).trans (recordGap_carries _ _ _)

theorem endUnmarked_carries (s : State) : Carries s (endUnmarked s) := by
  unfold endUnmarked
  split
  · exact .refl s
  · split
    · exact .of_eq rfl
    · exact runCoders_carries (endMalformed_carries _ _ s)

theorem loseFrame_carries (a : Arrival) (s : State) : Carries s (loseFrame a s) := by
  have counted : Carries s { s with intake := { s.intake with lost := countUp countMax s.intake.lost 1 } } :=
    .of_eq rfl
  exact ((counted.trans (queueWork_carries (raise_work _ _))).trans (reportFault_carries _ _)).trans (recordGap_carries _ _ _)

theorem startFrame_carries (s : State) : Carries s (startFrame s) := by
  have started : Carries s { s with intake := { s.intake with
      counter := s.intake.counter + 1
      timecode := nextLabel s.rate s.intake.timecode
      arrival := some (newArrival s) } } := .of_eq rfl
  unfold startFrame
  dsimp only
  split
  · exact started.trans (.of_eq rfl)
  · exact runCoders_carries (started.trans (loseFrame_carries _ _))

theorem countWait_carries (s : State) : Carries s (countWait s) := by
  unfold countWait
  split
  · next n flight =>
    refine .ite (answer_carries _ _ s) ?_
    cases block : s.walker.block with
    | none =>
      unfold State.flight at flight
      rw [block] at flight
      cases flight
    | some b => exact (putStage_unloads (.inFlight (.frames (n - 1))) rfl s).carries block
  · exact .refl s

theorem syncStart_carries (time : Nat) (s : State) : Carries s (syncStart time s) := by
  have referred := changeSync_carries (fun c => { c with reference := some time }) s
  exact .ite (referred.trans (.ite (changeSync_carries _ _) ((changeSync_carries _ _).trans (judge_carries _ _)))) referred

theorem reportStart_carries (x : Frame) (time : Nat) (s : State) : Carries s (reportStart x time s) := by
  have recent : Carries s { s with clips := { s.clips with recentStart := some x } } := .of_eq rfl
  have owed : ∀ u, Carries u (oweRewrite u) := fun _ => .of_eq rfl
  exact ((recent.trans (syncStart_carries time _)).trans (owed _)).trans (countWait_carries _)

theorem frameStart_carries (time : Nat) (s : State) : Carries s (frameStart time s) := by
  unfold frameStart
  split
  · exact .refl s
  · exact settle_carries (endUnmarked_carries s)
  · exact settle_carries (((endUnmarked_carries s).trans (startFrame_carries _)).trans (reportStart_carries _ _ _))

theorem takeLine_carries (pixels : List Pixel) (check : BitVec 16) (s : State) : Carries s (takeLine pixels check s) := by
  unfold takeLine
  split
  · exact .refl s
  · exact .refl s
  · split
    · exact .refl s
    · exact .of_eq rfl

theorem frameEnd_carries (s : State) : Carries s (frameEnd s) := by
  have good : ∀ a i, Carries s (endGood a i s) := fun _ _ => .of_eq rfl
  unfold frameEnd
  split
  · exact .refl s
  · exact .refl s
  · split
    · exact .of_eq rfl
    · exact .ite (settle_carries (runCoders_carries (good _ _)))
        (settle_carries (runCoders_carries (endMalformed_carries _ _ s)))

theorem intakeDrained_carries (s : State) : Carries s (intakeDrained s) :=
  .ite (settle_carries (.ite (complete_carries (goStopped_carries s) _ _) (goStopped_carries s))) (.refl s)

theorem completeMaster_carries (p : MasterPicture) (size tag : Nat) (s : State) :
    Carries s (completeMaster p size tag s) := by
  have idle : ∀ u : State, Carries u { u with master := { u.master with picture := none } } := fun _ => .of_eq rfl
  exact ((coderWork_carries ((join_coders _ s).trans (releaseSlot_work p.item.slot _))).trans (idle _)).trans
    (coderWork_carries (runMaster_work _ _))

theorem endAttempt_carries (payload : Nat) (s : State) : Carries s (endAttempt payload s) := by
  have tagged : Carries s { s with freeTag := s.freeTag + 1 } := .of_eq rfl
  unfold endAttempt
  split
  · exact .refl s
  · refine .ite ?_ (tagged.trans (completeMaster_carries _ _ _ _))
    split
    · exact .of_eq rfl
    · exact tagged.trans (completeMaster_carries _ _ _ _)

theorem endProxyCoding_carries (payload : Nat) (s : State) : Carries s (endProxyCoding payload s) := by
  unfold endProxyCoding
  split
  · exact .refl s
  · next p _ =>
    have charged : ∀ n, Carries s { s with
        freeTag := s.freeTag + 1, governor := afterCompletion n s.governor } := fun n => .of_eq rfl
    have idle : ∀ u : State, Carries u { u with proxy := { u.proxy with picture := none } } := fun _ => .of_eq rfl
    exact (((charged _).trans (coderWork_carries ((join_coders _ _).trans (releaseSlot_work p.item.slot _)))).trans
      (idle _)).trans (coderWork_carries (runProxy_work _ _))

/-! ## What is written into a table -/

/-- The tables and a LOAD_TABLE under way are sound. -/
abbrev TableSafe (s : State) : Prop := TablesSound s ∧ LoadSound s

theorem tablesSound_of_eq {s t : State} (h : tablesOf t = tablesOf s) (sound : TablesSound s) : TablesSound t := by
  simp only [tablesOf, Prod.mk.injEq] at h
  obtain ⟨master, proxy⟩ := h
  refine ⟨?_, ?_, ?_, ?_, ?_⟩
  · rw [master]; exact sound.activity
  · rw [master]; exact sound.classes
  · rw [proxy]; exact sound.curve
  · rw [proxy]; exact sound.points
  · rw [proxy]; exact sound.rising

theorem Carries.safe {s t : State} (h : Carries s t) (safe : TableSafe s) : TableSafe t :=
  ⟨tablesSound_of_eq (h safe.2).1 safe.1, (h safe.2).2⟩

theorem spliceAt_length {start : Nat} {values table : List Nat} (h : start + values.length ≤ table.length) :
    (spliceAt start values table).length = table.length := by
  simp only [spliceAt, List.length_append, List.length_take, List.length_drop]
  omega

theorem mem_spliceAt {start v : Nat} {values table : List Nat} (h : v ∈ spliceAt start values table) :
    v ∈ values ∨ v ∈ table := by
  simp only [spliceAt, List.mem_append] at h
  rcases h with (front | value) | back
  · exact .inr (List.mem_of_mem_take front)
  · exact .inl value
  · exact .inr (List.mem_of_mem_drop back)

theorem adjustPoints_length (before : Nat) (values : List Nat) : (adjustPoints before values).length = values.length := by
  induction values generalizing before with
  | nil => rfl
  | cons v rest ih => rw [adjustPoints, List.length_cons, ih, List.length_cons]

theorem adjustPoints_le {before : Nat} (values : List Nat) (h : before ≤ 4095) :
    ∀ p ∈ adjustPoints before values, p ≤ 4095 := by
  induction values generalizing before with
  | nil => exact fun _ m => nomatch m
  | cons v rest ih =>
    have first : max before (min v 4095) ≤ 4095 := by omega
    rw [adjustPoints]
    exact List.forall_mem_cons.mpr ⟨first, ih first⟩

theorem adjustPoints_rising (before : Nat) (values : List Nat) :
    (∀ p ∈ adjustPoints before values, before ≤ p) ∧ (adjustPoints before values).Pairwise (· ≤ ·) := by
  induction values generalizing before with
  | nil => exact ⟨(fun _ m => nomatch m), .nil⟩
  | cons v rest ih =>
    obtain ⟨above, rising⟩ := ih (max before (min v 4095))
    rw [adjustPoints]
    refine ⟨List.forall_mem_cons.mpr ⟨le_max_left _ _, fun p m => ?_⟩, List.pairwise_cons.mpr ⟨above, rising⟩⟩
    exact (le_max_left _ _).trans (above p m)

theorem delivered_length (n : Nat) (bytes : List Byte) : (delivered n bytes).length = n := by
  simp only [delivered, List.length_append, List.length_take, List.length_replicate]
  omega

theorem loadFits_range {f : LoadFields} (fits : loadFits f = true) (activity : f.table = 0) :
    f.start + f.sourceLength ≤ 64 := by
  unfold loadFits at fits
  unfold LoadFields.sourceLength
  grind

theorem loadActivity_safe {f : LoadFields} {got : List Byte} {s : State} (going : Going s) (sound : TablesSound s)
    (range : f.start + got.length ≤ 64) : TableSafe (loadActivity f got s) := by
  have written : TablesSound { s with master := { s.master with
      table := spliceAt f.start (got.map classOf) s.master.table } } := by
    refine ⟨?_, fun c m => ?_, sound.curve, sound.points, sound.rising⟩
    · rw [← sound.activity]
      exact spliceAt_length (by rw [List.length_map, sound.activity]; exact range)
    · rcases mem_spliceAt m with given | kept
      · obtain ⟨v, -, rfl⟩ := List.mem_map.mp given
        exact min_le_right _ _
      · exact sound.classes c kept
  obtain ⟨tables, unloaded⟩ := complete_unloads (doneVerdict (countDifferent (got.map classOf) (got.map BitVec.toNat)))
    (countDifferent (got.map classOf) (got.map BitVec.toNat))
    { s with master := { s.master with table := spliceAt f.start (got.map classOf) s.master.table } }
  exact ⟨tablesSound_of_eq tables written, (unloaded ⟨going.reset, going.state⟩).sound⟩

theorem loadCurve_safe (got : List Byte) {s : State} (going : Going s) (sound : TablesSound s) :
    TableSafe (loadCurve got s) := by
  have written : TablesSound { s with proxy := { s.proxy with curve := adjustPoints 0 (curveValues got) } } :=
    ⟨sound.activity, sound.classes, by simp [adjustPoints_length, curveValues],
      adjustPoints_le _ (Nat.zero_le _), (adjustPoints_rising 0 _).2⟩
  obtain ⟨tables, unloaded⟩ := complete_unloads (doneVerdict (countDifferent (adjustPoints 0 (curveValues got)) (curveValues got)))
    (countDifferent (adjustPoints 0 (curveValues got)) (curveValues got))
    { s with proxy := { s.proxy with curve := adjustPoints 0 (curveValues got) } }
  exact ⟨tablesSound_of_eq tables written, (unloaded ⟨going.reset, going.state⟩).sound⟩

/-- The bytes of a burst whose length is that of the next read never pass the source's end. -/
theorem sourceArrived_safe {b : Block} {before : List Byte} {n : Nat} (bytes : List Byte) {s : State} (going : Going s)
    (sound : TablesSound s) (block : s.walker.block = some b) (stage : b.stage = .reading before)
    (fits : loadFits b.loadFields = true) (inside : before.length + n ≤ b.loadFields.sourceLength) :
    TableSafe (sourceArrived n bytes s) := by
  have length : (before ++ delivered n bytes).length = before.length + n := by
    rw [List.length_append, delivered_length]
  unfold sourceArrived
  simp only [block, stage]
  split
  · next more =>
    exact ⟨tablesSound_of_eq (followedBy_tables (requestSource_followedBy _ _ s)) sound,
      requestSource_sound going block fits more⟩
  · split
    · next activity =>
      have range := loadFits_range fits activity
      exact loadActivity_safe going sound (by omega)
    · exact loadCurve_safe _ going sound

theorem tableSourceReadDone_safe {s : State} (safe : TableSafe s) (bytes : List Byte) :
    TableSafe (answerOk .walker .table (fun b => sourceArrived b.length bytes) s) := by
  obtain ⟨sound, load⟩ := safe
  unfold answerOk
  split
  · exact ⟨sound, load⟩
  · next u port =>
    obtain ⟨-, held, -⟩ := onPort_some port
    refine (settle_carries (.refl _)).safe ?_
    split
    · next orphan =>
      have ended : Carries s (endBurst .walker u s) :=
        ((dropBurst_orphan (orphan_reset orphan)).trans (freePort_carries _)).trans (.of_eq rfl)
      exact ended.safe ⟨sound, load⟩
    · by_cases reads : ∃ b got, s.walker.block = some b ∧ b.stage = .reading got
      · obtain ⟨b, got, block, stage⟩ := reads
        obtain ⟨fits, more, v, same, -, length⟩ := load.reading b got block stage
        cases held.symm.trans same
        have going := loadSound_going load block
        refine sourceArrived_safe (s := endBurst .walker u s) bytes ⟨rfl, going.state⟩
          (tablesSound_of_eq (s := s) rfl sound) block stage fits ?_
        have short : u.length ≤ b.loadFields.sourceLength - got.length := by
          rw [length]
          exact min_le_left _ _
        omega
      · have idle : sourceArrived u.length bytes (endBurst .walker u s) = endBurst .walker u s := by
          unfold sourceArrived
          split
          · rfl
          · next b block =>
            split
            · next got stage => exact absurd ⟨b, got, block, stage⟩ reads
            · rfl
        have dropped : Carries s (endBurst .walker u s) := fun load => ⟨rfl, nofun, load.cleared, load.waiting,
          fun b got block stage => absurd ⟨b, got, block, stage⟩ reads⟩
        change TableSafe (sourceArrived u.length bytes (endBurst .walker u s))
        rw [idle]
        exact dropped.safe ⟨sound, load⟩

/-! ## Tables that become READY -/

theorem resumeLoad_carries (n : Nat) (s : State) : Carries s (resumeLoad n s) := by
  unfold resumeLoad
  split
  · exact .refl s
  · next b block =>
    split
    · next waits =>
      refine fun sound => ⟨followedBy_tables (requestSource_followedBy b [] s), ?_⟩
      obtain ⟨-, fits⟩ := sound.waiting b block waits.1
      exact requestSource_sound (loadSound_going sound block) block fits (loadFits_length fits)
    · exact .refl s

theorem identityCurve_sound : identityCurve.length = 33 ∧ (∀ p ∈ identityCurve, p ≤ 4095)
    ∧ identityCurve.Pairwise (· ≤ ·) := by decide

theorem activityReady_safe {s : State} (safe : TableSafe s) : TableSafe (activityReady s) := by
  obtain ⟨sound, load⟩ := safe
  unfold activityReady
  split
  · exact ⟨sound, load⟩
  · refine (settle_carries (resumeLoad_carries 0 _)).safe ⟨⟨by simp, fun c m => ?_, sound.curve, sound.points, sound.rising⟩,
      load.reset, load.cleared, load.waiting, load.reading⟩
    rw [List.eq_of_mem_replicate m]
    decide

theorem curveReady_safe {s : State} (safe : TableSafe s) : TableSafe (curveReady s) := by
  obtain ⟨sound, load⟩ := safe
  unfold curveReady
  split
  · exact ⟨sound, load⟩
  · obtain ⟨length, points, rising⟩ := identityCurve_sound
    exact (settle_carries (resumeLoad_carries 1 _)).safe ⟨⟨sound.activity, sound.classes, length, points, rising⟩,
      load.reset, load.cleared, load.waiting, load.reading⟩

theorem fullReset_safe (s : State) : TableSafe (fullReset s) := by
  obtain ⟨-, tables, -⟩ := resetMeetsInvariants
  exact ⟨tablesSound_of_eq (s := State.reset) rfl tables, nofun, fun _ => rfl, nofun, nofun⟩

/-! ## Every command -/

/-- The commands that write a table. -/
def writesTables : Instr → Bool
  | .fullReset | .activityTableInitEnd | .lookCurveInitEnd | .tableSourceReadDone _ => true
  | _ => false

/-- Every other command leaves the tables as they are, and keeps a load under way sound. -/
theorem exec_carries {c : Instr} {s t : State} (h : exec c s = .next t) (other : writesTables c = false) :
    Carries s t := by
  cases c with
  | fullReset => cases other
  | activityTableInitEnd => cases other
  | lookCurveInitEnd => cases other
  | tableSourceReadDone bytes => cases other
  | frameStart time => cases h; exact frameStart_carries time s
  | line pixels check => cases h; exact takeLine_carries pixels check s
  | frameEnd => cases h; exact frameEnd_carries s
  | attemptEnd payload => cases h; exact settle_carries (endAttempt_carries payload s)
  | proxyCodingEnd payload => cases h; exact settle_carries (endProxyCoding_carries payload s)
  | entry value => cases h; exact settle_carries (takeEntry_carries value s)
  | headerFetchDone bytes => cases h; exact answerOk_carries .header nofun (fun _ u _ => headerArrived_carries bytes u) s
  | bodyFetchDone bytes => cases h; exact answerOk_carries .body nofun (fun _ _ answered => bodyArrived_carries answered _ bytes) s
  | setup => cases h; exact takeDirective_carries (fun b u _ => setupDirective_carries b u) s
  | tune => cases h; exact takeDirective_carries (fun b u _ => tuneDirective_carries b u) s
  | lines => cases h; exact takeDirective_carries (fun b u _ => linesDirective_carries b u) s
  | loadTable => cases h; exact takeDirective_carries (fun _ _ hand => loadDirective_carries hand) s
  | grant => cases h; exact takeDirective_carries (fun _ _ hand => grantDirective_carries hand.1) s
  | relinquish => cases h; exact takeDirective_carries (fun _ _ hand => relinquishDirective_carries hand.1) s
  | startIntake => cases h; exact takeDirective_carries (fun b u _ => startDirective_carries b u) s
  | stopIntake => cases h; exact takeDirective_carries (fun _ _ hand => stopDirective_carries hand.1) s
  | intakeDrained => cases h; exact intakeDrained_carries s
  | roll source => cases h; exact takeRoll_carries source s
  | cut source => cases h; exact takeCut_carries source s
  | mark source => cases h; exact takeMarkFrom_carries source s
  | setTimecode => cases h; exact takeDirective_carries (fun b u _ => timecodeDirective_carries b u) s
  | wait => cases h; exact takeDirective_carries (fun _ _ hand => waitDirective_carries hand.1) s
  | outcomeWriteDone => cases h; exact answerOk_carries .outcome nofun (fun _ _ answered => outcomeWritten_carries answered.reset) s
  | refusedSlotWriteDone => cases h; exact answerOk_carries .refusedSlot nofun (fun _ u _ => refusedSlotWritten_carries u) s
  | walkerReturnedCountDone => cases h; exact answerOk_carries .walkerCount nofun (fun _ u _ => returnedCountWritten_carries u) s
  | halt => cases h; exact takeHalt_carries s
  | resume => cases h; exact takeResume_carries s
  | stop => cases h; exact takeStop_carries s
  | freeze level => cases h; exact takeFreeze_carries level s
  | engineReset => cases h; exact engineReset_carries s
  | engineResetComplete => cases h; exact engineResetComplete_carries s
  | notice value => cases h; exact .ite (.of_eq rfl) (.of_eq rfl)
  | noticeMask value => cases h; exact .of_eq rfl
  | ignoredRegisterWrite offset value => cases h; exact .refl s
  | pageRewriteDone => cases h; exact answerOk_carries .rewrite nofun (fun _ u _ => .refl u) s
  | writerBurstDone => cases h; exact writerBurstDone_carries s
  | gapTimerExpiry stream => cases h; exact .ite (settle_carries (putWriter_carries _ _ s)) (.refl s)
  | resultSlotBurstDone => cases h; exact answerOk_carries .resultSlot nofun (fun _ u _ => resultSlotWritten_carries u) s
  | resultCountBurstDone => cases h; exact answerOk_carries .resultCount nofun (fun _ u _ => segmentReturned_carries u) s
  | burstRetry => cases h; exact answerRetry_carries s
  | burstError => cases h; exact answerError_carries s
  | rawLevelChange n drive time => cases h; exact rawChange_carries n drive time s
  | filterTimerExpiry n time => cases h; exact filterExpired_carries n time s
  | toggle n => cases h; exact takeToggle_carries n s
  | blinkTimerExpiry => cases h; exact blinkExpired_carries s

theorem exec_safe {c : Instr} {s t : State} (h : exec c s = .next t) (safe : TableSafe s) : TableSafe t := by
  by_cases writes : writesTables c = true
  · cases c with
    | fullReset => cases h; exact fullReset_safe s
    | activityTableInitEnd => cases h; exact activityReady_safe safe
    | lookCurveInitEnd => cases h; exact curveReady_safe safe
    | tableSourceReadDone bytes => cases h; exact tableSourceReadDone_safe safe bytes
    | _ => cases writes
  · exact (exec_carries h (Bool.eq_false_iff.mpr writes)).safe safe

/-- Settles O6: only four commands write a table, and a load reaches its table after its checks. -/
theorem stepKeepsTables : Obligations.StepKeepsTables := by
  intro s t sound load h
  unfold step at h
  split at h
  · cases h
    exact ⟨sound, load⟩
  · next c rest _ =>
    have front : TableSafe { s with pending := rest } := Carries.safe (s := s) (.of_eq rfl) ⟨sound, load⟩
    exact exec_safe h front

end Sys2Proof.Proofs
end

section
/-! SUPPORT. A master attempt that is followed by a coarser one (R24 to R26). -/

namespace Sys2Proof.Proofs

open Sys2Proof.Machine Sys2Proof.Laws

theorem tileStepsOf_eq (source : Option (List Nat)) (offsets : List Int) (step : Nat) (indices : List Nat) :
    tileStepsOf source offsets step indices = indices.map (tileStepOf source offsets step) := by
  cases source <;> rfl

/-- The next attempt's step is one that R26 gives, where it is a new one. -/
theorem nextAttemptStep_some {p : MasterPicture} {q : Nat} (further : p.attempt = 1 ∧ q = min (p.settings.step + 4) 63
      ∨ p.attempt = 2 ∧ q = min (p.settings.step + 8) 63) (new : q ≠ p.step) : nextAttemptStep p = some q := by
  rcases further with ⟨first, rfl⟩ | ⟨second, rfl⟩
  · simp [nextAttemptStep, first, new]
  · simp [nextAttemptStep, second, new]

/-- Settles O20: the coding is too large, and R26 gives a step for a further one. -/
theorem attemptEndFurther : Obligations.AttemptEndFurther := by
  intro s p n q calm picture low high cap large further new
  have size : masterSize p n = n + 32 := by rw [masterSize, clamp_within low high]
  have exceeds : exceedsCap p (n + 32) = true := by simp [exceedsCap, cap, large]
  have ended : endAttempt n s = { s with
      freeTag := s.freeTag + 1
      master := { s.master with picture := some { p with
        attempt := p.attempt + 1
        step := q
        tileSteps := p.indices.map (tileStepOf p.source p.settings.offsets q)
        latest := some (p.step, n + 32, s.freeTag) } } } := by
    simp only [endAttempt, picture, size, exceeds, if_true, nextAttemptStep_some further new, beginAttempt, tileStepsOf_eq]
  exact follows_of_settle (by rw [← ended]; rfl) calm

end Sys2Proof.Proofs
end

section
/-! SUPPORT. A table becomes READY, and a LOAD_TABLE that waits for it begins to read (R30, R32, R46, R48). -/

namespace Sys2Proof.Proofs

open Sys2Proof.Machine Sys2Proof.Laws

/-- The walker is WALKING, or STOPPING still (R163). -/
def walksOn (s : State) : State :=
  { s with walker := { s.walker with state := if s.walker.state = .stopping then .stopping else .walking } }

/-- The burst that reads a LOAD_TABLE's source on from `got` bytes (R31, R47, R174). -/
def sourceBurst (f : LoadFields) (got : List Byte) : Burst :=
  ⟨.table, f.source + got.length,
    min ((if f.table = 0 then f.count else 66) - got.length) (4096 - (f.source + got.length) % 4096), []⟩

theorem requestSource_eq {b : Block} {s : State} (block : s.walker.block = some b) (got : List Byte) :
    requestSource b got s = walkerAsks (sourceBurst b.loadFields got) (.reading got) b (walksOn s) := by
  unfold requestSource walkerAsks walksOn
  simp [block, putStage, changeBlock, changeWalker, requestBurst, goUnlessStopping_state, Quad.set, sourceBurst,
    burstLength, LoadFields.sourceLength]

theorem calm_reads {s : State} (calm : Calm s) (burst : Burst) (got : List Byte) (b : Block) :
    Calm (walkerAsks burst (.reading got) b (walksOn s)) := by
  obtain ⟨master, proxy, -, -⟩ := calm
  refine calm_asks burst (.reading got) b (s := walksOn s) master proxy ?_ nofun
  simp only [walksOn]
  split <;> exact nofun

theorem resumeLoad_idle {s : State} (flight : s.flight ≠ some .loadTable) (n : Nat) : resumeLoad n s = s := by
  unfold resumeLoad
  split
  · rfl
  · next b block =>
    refine if_neg fun waits => flight ?_
    exact flight_eq ⟨block, waits.1⟩

theorem resumeLoad_reads {b : Block} {s : State} (flies : FliesAs .loadTable b s) {n : Nat}
    (table : b.loadFields.table = n) : resumeLoad n s = requestSource b [] s := by
  obtain ⟨block, stage⟩ := flies
  simp [resumeLoad, block, stage, table]

theorem activityTableInitEnd_eq {s : State} (initialising : s.master.tableState = .initialising) :
    exec .activityTableInitEnd s = .next (settle (resumeLoad 0
      { s with master := { s.master with table := List.replicate 64 1, tableState := .ready } })) := by
  show Host.Outcome.next (activityReady s) = _
  simp only [activityReady, initialising]

theorem lookCurveInitEnd_eq {s : State} (initialising : s.proxy.curveState = .initialising) :
    exec .lookCurveInitEnd s = .next (settle (resumeLoad 1
      { s with proxy := { s.proxy with curve := identityCurve, curveState := .ready } })) := by
  show Host.Outcome.next (curveReady s) = _
  simp only [curveReady, initialising]

theorem resumeLoad_waiting {b : Block} {s : State} (flies : FliesAs .loadTable b s)
    (waiting : s.walker.state = .waiting) {n : Nat} (table : b.loadFields.table = n) :
    resumeLoad n s = walkerAsks
      ⟨.table, b.loadFields.source,
        min (if b.loadFields.table = 0 then b.loadFields.count else 66) (4096 - b.loadFields.source % 4096), []⟩
      (.reading []) b { s with walker := { s.walker with state := .walking } } := by
  rw [resumeLoad_reads flies table, requestSource_eq flies.1]
  simp [walksOn, waiting, sourceBurst]

theorem resumeLoad_calm {b : Block} {s : State} (flies : FliesAs .loadTable b s) (calm : Calm s) {n : Nat}
    (table : b.loadFields.table = n) : Calm (resumeLoad n s) := by
  rw [resumeLoad_reads flies table, requestSource_eq flies.1]
  exact calm_reads calm _ _ _

/-- Settles O27: a waiting LOAD_TABLE of the table that becomes READY reads its source, and no other is touched. -/
theorem tablesBecomeReady : Obligations.TablesBecomeReady := by
  intro s calm master proxy reads
  refine ⟨fun initialising other => ?_, fun initialising other => ?_,
    fun b flies waiting => ⟨fun initialising table => ?_, fun initialising table => ?_⟩⟩
  · have idle : resumeLoad 0 master = master := resumeLoad_idle (s := master) other 0
    exact follows_of_settle (by rw [activityTableInitEnd_eq initialising, idle]) calm
  · have idle : resumeLoad 1 proxy = proxy := resumeLoad_idle (s := proxy) other 1
    exact follows_of_settle ((lookCurveInitEnd_eq initialising).trans
      (congrArg (fun u => Host.Outcome.next (settle u)) idle)) calm
  · have goes : resumeLoad 0 master = reads b master := resumeLoad_waiting (s := master) flies waiting table
    have still : Calm (resumeLoad 0 master) := resumeLoad_calm (s := master) flies calm table
    exact follows_of_settle ((activityTableInitEnd_eq initialising).trans
      (congrArg (fun u => Host.Outcome.next (settle u)) goes)) (goes ▸ still)
  · have goes : resumeLoad 1 proxy = reads b proxy := resumeLoad_waiting (s := proxy) flies waiting table
    have still : Calm (resumeLoad 1 proxy) := resumeLoad_calm (s := proxy) flies calm table
    exact follows_of_settle ((lookCurveInitEnd_eq initialising).trans
      (congrArg (fun u => Host.Outcome.next (settle u)) goes)) (goes ▸ still)

end Sys2Proof.Proofs
end

section
/-! SUPPORT. LOAD_TABLE: its checks, the reading of its source, and what it writes (R31, R32, R47, R48, R174). -/

namespace Sys2Proof.Proofs

open Sys2Proof.Machine Sys2Proof.Laws

theorem loadFits_iff (f : LoadFields) : loadFits f = true ↔ f.source < 2 ^ 48 ∧
    (f.table = 0 ∧ f.start ≤ 63 ∧ 1 ≤ f.count ∧ f.count ≤ 64 ∧ f.start + f.count ≤ 64
      ∨ f.table = 1 ∧ f.start = 0 ∧ f.count = 33) := by
  unfold loadFits
  grind

/-! ## The values written -/

theorem countDifferent_map {α : Type} (f g : α → Nat) (l : List α) :
    countDifferent (l.map f) (l.map g) = (l.filter fun v => decide (f v ≠ g v)).length := by
  induction l with
  | nil => rfl
  | cons v rest ih =>
    rw [List.map_cons, List.map_cons, countDifferent, ih, differs]
    by_cases same : f v = g v <;> simp [same, Nat.add_comm]

theorem countDifferent_zip (a b : List Nat) :
    countDifferent a b = ((a.zip b).filter fun p => p.1 != p.2).length := by
  induction a generalizing b with
  | nil => rfl
  | cons v rest ih =>
    cases b with
    | nil => rfl
    | cons w more =>
      rw [countDifferent, ih, differs, List.zip_cons_cons]
      by_cases same : v = w <;> simp [same, Nat.add_comm]

theorem countDifferent_classes (got : List Byte) :
    countDifferent (got.map classOf) (got.map BitVec.toNat) = (got.filter fun v => decide (3 < v.toNat)).length := by
  rw [countDifferent_map]
  congr 1
  refine List.filter_congr fun v _ => ?_
  unfold classOf
  exact decide_eq_decide.mpr (by omega)

theorem leValue_pair (got : List Byte) (i : Nat) :
    leValue ((got.drop i).take 2) = (got.getD i 0).toNat + 256 * (got.getD (i + 1) 0).toNat := by
  induction got generalizing i with
  | nil => simp [leValue]
  | cons v rest ih =>
    cases i with
    | zero => cases rest <;> simp [leValue]
    | succ i => simpa using ih i

/-- A point that follows others is raised to the largest before it. -/
theorem adjustPoints_eq (before : Nat) (values : List Nat) : adjustPoints before values
    = (List.range values.length).map fun k => ((values.take (k + 1)).map fun v => min v 4095).foldl max before := by
  induction values generalizing before with
  | nil => rfl
  | cons v rest ih =>
    rw [adjustPoints, ih, List.length_cons, List.range_succ_eq_map, List.map_cons, List.map_map]
    rfl

theorem loadActivity_eq {b : Block} {s : State} (block : s.walker.block = some b) (f : LoadFields) (got : List Byte) :
    let changed := (got.filter fun v => decide (3 < v.toNat)).length
    let classes := got.map fun v => min v.toNat 3
    loadActivity f got s = answered (if changed = 0 then .done else .doneAdjusted) changed b
      { s with master := { s.master with
        table := s.master.table.take f.start ++ classes ++ s.master.table.drop (f.start + classes.length) } } := by
  intro changed classes
  rw [loadActivity, countDifferent_classes]
  exact complete_eq _ _ block

theorem loadCurve_eq {b : Block} {s : State} (block : s.walker.block = some b) (got : List Byte) :
    let values := (List.range 33).map fun k => (got.getD (2 * k) 0).toNat + 256 * (got.getD (2 * k + 1) 0).toNat
    let points := (List.range 33).map fun k => ((values.take (k + 1)).map fun v => min v 4095).foldl max 0
    let changed := ((points.zip values).filter fun p => p.1 != p.2).length
    loadCurve got s = answered (if changed = 0 then .done else .doneAdjusted) changed b
      { s with proxy := { s.proxy with curve := points } } := by
  intro values points changed
  have read : curveValues got = values := by simp only [curveValues, leValue_pair, values]
  have adjusted : adjustPoints 0 values = points := by
    rw [adjustPoints_eq, show values.length = 33 by simp [values]]
  simp only [loadCurve, read, adjusted, countDifferent_zip]
  exact complete_eq _ _ block

theorem delivered_whole {n : Nat} {bytes : List Byte} (whole : bytes.length = n) : delivered n bytes = bytes := by
  simp [delivered, ← whole]

/-! ## Taking a LOAD_TABLE and reading its source -/

theorem loadTable_eq {b : Block} {s : State} (hand : InHand .loadTable b s) :
    exec .loadTable s = .next (settle (loadDirective b s)) := by
  show Host.Outcome.next (takeDirective .loadTable loadDirective s) = _
  rw [takeDirective_eq _ hand]

theorem tableSourceReadDone_eq {s : State} {b : Block} {u : Burst} {before bytes : List Byte}
    (port : OnPort .walker .table u s) (block : s.walker.block = some b) (stage : b.stage = .reading before)
    (whole : bytes.length = u.length) : exec (.tableSourceReadDone bytes) s = .next (settle
      (if (before ++ bytes).length < b.loadFields.sourceLength then requestSource b (before ++ bytes) (portEnded .walker u s)
        else if b.loadFields.table = 0 then loadActivity b.loadFields (before ++ bytes) (portEnded .walker u s)
        else loadCurve (before ++ bytes) (portEnded .walker u s))) := by
  show Host.Outcome.next (answerOk .walker .table (fun b => sourceArrived b.length bytes) s) = _
  rw [answerOk_eq _ port]
  have held : (portEnded .walker u s).walker.block = some b := block
  simp only [sourceArrived, held, stage, delivered_whole whole]

theorem loadState_initialising {f : LoadFields} {s : State}
    (waits : ¬ if f.table = 0 then s.master.tableState = .ready else s.proxy.curveState = .ready) :
    loadState f s = .initialising := by
  unfold loadState
  split_ifs at waits ⊢
  · cases state : s.master.tableState <;> simp_all
  · cases state : s.proxy.curveState <;> simp_all

theorem loadState_ready {f : LoadFields} {s : State}
    (ready : if f.table = 0 then s.master.tableState = .ready else s.proxy.curveState = .ready) :
    loadState f s = .ready := by
  unfold loadState
  split_ifs at ready ⊢
  · exact ready
  · exact ready

/-- Settles O52: the cases of `loadDirective`, and of the arrival of a source burst. -/
theorem tableLoaded : Obligations.TableLoaded := by
  intro s b calm f fits ready whole read walks verdict
  obtain ⟨master, proxy, -, -⟩ := id calm
  refine ⟨fun hand => ?_, fun u before bytes port block stage length => ?_⟩
  · have command := loadTable_eq hand
    obtain ⟨block, -, -⟩ := id hand
    have answers : ∀ v, loadDirective b s = complete v 0 s →
        ∃ t, exec .loadTable s = .next t ∧ Follows (answered v 0 b s) t := fun v acts =>
      follows_of_settle (by rw [command, acts, complete_eq _ _ block]) (calm_answered v 0 b master proxy)
    refine ⟨fun bad => answers _ ?_, fun good waits stopping => answers _ ?_, fun good waits going => ?_, fun good ready => ?_⟩
    · exact if_neg (mt (loadFits_iff f).mp bad)
    · simp only [loadDirective, (loadFits_iff f).mpr good, loadState_initialising waits, goOrAbandon, stopping, if_true, f]
    · have acts : loadDirective b s = inFlight .loadTable b s := by
        rw [← goInFlight_eq _ block]
        simp only [loadDirective, (loadFits_iff f).mpr good, loadState_initialising waits, goOrAbandon, going, if_true,
          if_false, f]
      refine follows_of_settle (by rw [command, acts]) ⟨master, proxy, nofun, ?_⟩
      simp [State.flight, inFlight]
    · have acts : loadDirective b s = requestSource b [] s := by
        simp only [loadDirective, (loadFits_iff f).mpr good, loadState_ready ready, if_true, f]
      exact follows_of_settle (by rw [command, acts, requestSource_eq block]; rfl) (calm_reads calm _ _ b)
  · intro got ended classes values points changedClasses changedPoints
    have command : exec (.tableSourceReadDone bytes) s = .next (settle (if got.length < whole then requestSource b got ended
        else if f.table = 0 then loadActivity f got ended else loadCurve got ended)) :=
      tableSourceReadDone_eq port block stage length
    have endedCalm : Calm ended := ⟨master, proxy, calm.2.2.1, calm.2.2.2⟩
    refine ⟨fun part => ?_, fun all table => ?_, fun table all => ?_⟩
    · rw [if_pos part, requestSource_eq (s := ended) block] at command
      exact follows_of_settle command (calm_reads endedCalm _ _ b)
    · rw [if_neg (Nat.not_lt.mpr all), if_pos table, loadActivity_eq (s := ended) block] at command
      exact follows_of_settle command (calm_answered _ _ b master proxy)
    · rw [if_neg (by simp [whole, table, all]), if_neg (by simp [table]), loadCurve_eq (s := ended) block] at command
      exact follows_of_settle command (calm_answered _ _ b master proxy)

end Sys2Proof.Proofs
end

section
/-! SUPPORT. The activity indices of a picture, written with the samples' places (R23). -/

namespace Sys2Proof.Proofs

open Sys2Proof.Machine Sys2Proof.Laws

theorem take_drop_eq_map {α : Type} (l : List α) (d : α) (a n : Nat) :
    (l.drop a).take n = (List.range (min n (l.length - a))).map fun i => l.getD (a + i) d := by
  refine List.ext_getElem (by simp) fun i inside _ => ?_
  have bound : a + i < l.length := by simp at inside; omega
  simp [bound]

theorem map_range_succ {α : Type} (f : Nat → α) (n : Nat) :
    (List.range (n + 1)).map f = f 0 :: (List.range n).map fun i => f (i + 1) := by
  rw [List.range_succ_eq_map, List.map_cons, List.map_map]
  rfl

theorem lineActivity_map (f : Nat → Nat) (n : Nat) : lineActivity ((List.range n).map f)
    = ((List.range (n - 1)).map fun i => ((f i : Int) - f (i + 1)).natAbs).sum := by
  induction n generalizing f with
  | zero => rfl
  | succ n ih =>
    cases n with
    | zero => rfl
    | succ n =>
      have rest := ih fun i => f (i + 1)
      rw [map_range_succ] at rest
      have first : max (f 0) (f 1) - min (f 0) (f 1) = ((f 0 : Int) - f 1).natAbs := by omega
      rw [map_range_succ, map_range_succ, lineActivity, rest, first, show n + 1 + 1 - 1 = n + 1 from rfl, map_range_succ,
        List.sum_cons]
      rfl

/-- The luma samples of a tile of a picture of `w` by `h` pixels. -/
theorem tileLuma_eq {w h : Nat} {lines : List (List Pixel)} (height : lines.length = h)
    (width : ∀ l ∈ lines, l.length = w) (row column : Nat) : tileLuma lines row column
    = (List.range (min 64 (h - 64 * row))).map fun j => (List.range (min 128 (w - 128 * column))).map fun i =>
        lumaAt lines (128 * column + i) (64 * row + j) := by
  rw [tileLuma, take_drop_eq_map lines [], height, List.map_map]
  refine List.map_congr_left fun j inside => ?_
  have below : 64 * row + j < lines.length := by rw [List.mem_range] at inside; omega
  have long : (lines.getD (64 * row + j) []).length = w := by
    rw [List.getD_eq_getElem _ _ below]
    exact width _ (List.getElem_mem below)
  simp only [Function.comp, take_drop_eq_map _ (⟨0, 0⟩ : Pixel), long, List.map_map, lumaAt]
  rfl

theorem activityIndex_tileLuma {w h : Nat} {lines : List (List Pixel)} (height : lines.length = h)
    (width : ∀ l ∈ lines, l.length = w) (row column : Nat) :
    activityIndex (tileLuma lines row column) = activityOf w h lines row column := by
  rw [activityIndex, tileLuma_eq height width, activityOf]
  simp only [List.map_map, Function.comp_def, lineActivity_map, List.length_map, List.length_range, List.map_const',
    List.sum_replicate, smul_eq_mul, List.flatMap, List.sum_flatten]
  rw [Nat.mul_comm (min 64 (h - 64 * row))]
  rfl

end Sys2Proof.Proofs
end

section
/-! SUPPORT. The proxy's pixels, written with the samples of their windows (R41, R42). -/

namespace Sys2Proof.Proofs

open Sys2Proof.Machine Sys2Proof.Laws

/-- The indices below `size` from `a` up to `b`. -/
theorem range_filter_between (a b size : Nat) : ((List.range size).filter fun i => decide (a ≤ i ∧ i < b))
    = (List.range (min b size - a)).map (a + ·) := by
  induction size with
  | zero => simp
  | succ n ih =>
    rw [List.range_succ, List.filter_append, ih]
    by_cases inside : a ≤ n ∧ n < b
    · have grown : min b (n + 1) - a = (min b n - a) + 1 := by omega
      have last : a + (min b n - a) = n := by omega
      rw [grown, List.range_succ, List.map_append, List.map_singleton, last]
      simp [inside]
    · have same : min b (n + 1) - a = min b n - a := by omega
      simp [inside, same]

theorem windowMean_lt {samples : List Nat} (bounded : ∀ v ∈ samples, v < 4096) : windowMean samples < 4096 := by
  have total : samples.sum ≤ samples.length * 4095 := by
    simpa using List.sum_le_card_nsmul samples 4095 fun v inside => Nat.le_of_lt_succ (bounded v inside)
  rw [windowMean]
  rcases Nat.eq_zero_or_pos samples.length with none | some
  · simp [none]
  · rw [Nat.div_lt_iff_lt_mul some]
    omega

/-- A window's columns, or lines, where its block lies within the picture. -/
theorem windowSpan_eq (filter : Filter) {f size k : Nat} (inside : k < size / f) : windowSpan filter f size k
    = (List.range size).filter fun i => decide (f * k ≤ i + (if filter = .short then 0 else 1)
        ∧ i < f * k + f + (if filter = .short then 0 else 1)) := by
  have block : f * k + f ≤ size := calc
    f * k + f = (k + 1) * f := by ring
    _ ≤ size := (Nat.le_div_iff_mul_le (Nat.pos_of_ne_zero fun none => by simp [none] at inside)).mp inside
  cases filter with
  | short =>
    simp only [if_true, Nat.add_zero]
    rw [range_filter_between, Nat.min_eq_left block, Nat.add_sub_cancel_left, windowSpan]
  | long =>
    have wider : (fun i => decide (f * k ≤ i + 1 ∧ i < f * k + f + 1))
        = fun i => decide (f * k - 1 ≤ i ∧ i < f * k + f + 1) := by
      funext i
      exact decide_eq_decide.mpr (by omega)
    simp only [reduceCtorEq, if_false]
    rw [wider, range_filter_between, windowSpan]

theorem proxyPixel_eq (g : Geometry) (filter : Filter) (curve : Option (List Nat)) (lines : List (List Pixel))
    {x y : Nat} (column : x < g.width / g.factor) (line : y < g.height / g.factor) :
    proxyPixel g filter curve lines x y = proxyPixelOf g filter curve lines x y := by
  have pair : x % 2 = if x % 2 = 0 then 0 else 1 := by split <;> omega
  have fits : windowMean ((windowOf g filter x y).map fun c => (pixelAt lines c.1 c.2).luma.toNat) % 2 ^ 12
      = windowMean ((windowOf g filter x y).map fun c => (pixelAt lines c.1 c.2).luma.toNat) :=
    Nat.mod_eq_of_lt (windowMean_lt fun v inside => by
      obtain ⟨c, -, rfl⟩ := List.mem_map.mp inside
      exact (pixelAt lines c.1 c.2).luma.isLt)
  simp only [proxyPixel, scaledPixel, BitVec.toNat_ofNat, fits]
  simp only [windowOf, windowSpan_eq filter column, windowSpan_eq filter line, List.map_flatMap, List.map_map]
  rw [pair]
  cases curve <;> rfl

end Sys2Proof.Proofs
end

section
/-! SUPPORT. A good frame end whose item reaches an idle coder (R22, R39). -/

namespace Sys2Proof.Proofs

open Sys2Proof.Machine Sys2Proof.Laws

theorem runMaster_begins {s : State} {item : SlotItem} {rest : List Item} (n : Nat) (idle : s.master.picture = none)
    (front : s.inputs.master = .slot item :: rest) : runMaster (n + 1) s
      = beginMaster item { s with inputs := { s.inputs with master := rest } } := by
  simp [runMaster, idle, front]

theorem runMaster_coding {s : State} (n : Nat) (coding : s.master.picture.isSome = true) : runMaster n s = s := by
  cases n <;> simp [runMaster, coding]

theorem runProxy_coding {s : State} (n : Nat) (coding : s.proxy.picture.isSome = true) : runProxy n s = s := by
  cases n <;> simp [runProxy, coding]

/-- In OFF a slot item begins a proxy picture at Qstart (R39, R60). -/
theorem runProxy_begins {s : State} {item : SlotItem} {rest : List Item} (n : Nat) (idle : s.proxy.picture = none)
    (front : s.inputs.proxy = .slot item :: rest) (off : s.governor.inputs.mode = .off) : runProxy (n + 1) s
      = beginProxy item s.governor.inputs.qstart { s with
          inputs := { s.inputs with proxy := rest }, governor := { s.governor with openPicture := true } } := by
  have taken : takeProxyItem item { s with inputs := { s.inputs with proxy := rest } }
      = beginProxy item s.governor.inputs.qstart { s with
          inputs := { s.inputs with proxy := rest }, governor := { s.governor with openPicture := true } } := by
    simp only [takeProxyItem, decision, afterDecision, off]
  rw [runProxy, if_neg (by simp [idle]), front]
  simp only
  rw [taken, runProxy_coding _ rfl]

theorem runCoders_beginsMaster {s : State} {item : SlotItem} (idle : s.master.picture = none)
    (only : s.inputs.master = [.slot item]) (coding : s.proxy.picture.isSome = true) :
    runCoders s = beginMaster item { s with inputs := { s.inputs with master := [] } } := by
  rw [runCoders, runMaster_begins _ idle only]
  exact runProxy_coding _ coding

theorem runCoders_beginsProxy {s : State} {item : SlotItem} (coding : s.master.picture.isSome = true)
    (idle : s.proxy.picture = none) (only : s.inputs.proxy = [.slot item]) (off : s.governor.inputs.mode = .off) :
    runCoders s = beginProxy item s.governor.inputs.qstart { s with
      inputs := { s.inputs with proxy := [] }, governor := { s.governor with openPicture := true } } := by
  rw [runCoders, runMaster_coding _ coding]
  exact runProxy_begins _ idle only off

theorem classificationSource_eq (m : MasterCoder) :
    classificationSource m = if m.tableState = .ready then some m.table else none := by
  cases state : m.tableState <;> simp [classificationSource, state]

theorem lumaSource_eq (p : ProxyPath) : lumaSource p = if p.curveState = .ready then some p.curve else none := by
  cases state : p.curveState <;> simp [lumaSource, state]

theorem newMasterPicture_eq {s : State} {item : SlotItem} {g : Geometry} {x : Slot}
    (geometry : s.intake.geometry = some g) (slot : s.slots[item.slot]? = some x) :
    newMasterPicture item s = ⟨item, g.width, g.height, s.master.settings, classificationSource s.master,
      activityIndices g.width g.height x.lines, 1, s.master.settings.step,
      (activityIndices g.width g.height x.lines).map
        (tileStepOf (classificationSource s.master) s.master.settings.offsets s.master.settings.step), none⟩ := by
  simp only [newMasterPicture, State.pictureGeometry, State.slotLines, List.getD_eq_getElem?_getD, geometry, slot,
    Option.getD_some, tileStepsOf_eq]

theorem newProxyPicture_eq {s : State} {item : SlotItem} {g : Geometry} {x : Slot} (q : Nat)
    (geometry : s.intake.geometry = some g) (slot : s.slots[item.slot]? = some x) :
    newProxyPicture item q s = ⟨item, g, s.proxy.filter, q, lumaSource s.proxy,
      proxyPixels g s.proxy.filter (lumaSource s.proxy) x.lines⟩ := by
  simp only [newProxyPicture, State.pictureGeometry, State.slotLines, List.getD_eq_getElem?_getD, geometry, slot,
    Option.getD_some]

/-- Settles O24: the item just appended is the only one in the idle coder's list, and begins. -/
theorem frameEndBegins : Obligations.FrameEndBegins := by
  refine ⟨?_, fun w h lines height width => ?_, fun g filter curve lines => ?_⟩
  · intro s a g i x calm going arrival geometry slot place good full item ended
    let listed : State := { ended with inputs := ⟨s.inputs.master ++ [.slot item], s.inputs.proxy ++ [.slot item]⟩ }
    have command : exec .frameEnd s = .next (settle (runCoders listed)) := by
      rw [frameEnd_slot going arrival geometry slot, if_pos ((good_iff a g).mpr ⟨good, full⟩), endGood_eq,
        modify_eq_set _ place]
    have ready : ended.slots[i]? = some { x with state := .ready, refs := 2 } :=
      List.getElem?_set_self (List.getElem?_eq_some_iff.mp place).1
    refine ⟨fun idle empty coding => ?_, fun coding idle empty off => ?_⟩
    · intro source indices
      refine follows_of_settle (command.trans ?_) calm
      rw [runCoders_beginsMaster (s := listed) (item := item) idle (by simp [listed, empty]) coding, beginMaster,
        newMasterPicture_eq (s := { listed with inputs := { listed.inputs with master := [] } }) (item := item) geometry
          ready, classificationSource_eq]
    · intro curve
      refine follows_of_settle (command.trans ?_) calm
      rw [runCoders_beginsProxy (s := listed) (item := item) coding idle (by simp [listed, empty]) off, beginProxy,
        newProxyPicture_eq (s := { listed with
          inputs := { listed.inputs with proxy := [] }, governor := { listed.governor with openPicture := true } })
          (item := item) _ geometry ready, lumaSource_eq]
  · rw [activityIndices]
    simp only [activityIndex_tileLuma height width]
  · rw [proxyPixels]
    refine List.map_congr_left fun y line => List.map_congr_left fun x column => ?_
    exact proxyPixel_eq g filter curve lines (List.mem_range.mp column) (List.mem_range.mp line)

end Sys2Proof.Proofs
end

section
/-! SUPPORT. What TUNE's pre-roll depth does to held entries, held marks, the aging line and the roll floor
(R79, R81, R96). -/

namespace Sys2Proof.Proofs

open Sys2Proof.Machine Sys2Proof.Laws

/-- `s` with everything blanked that goes with held entries: the queues, the aging line, the held marks, and the
notices of the high marks. -/
def besidesHeld (s : State) : State :=
  { s with
    queue := { s.queue with queues := ⟨⟨[], false⟩, ⟨[], false⟩⟩, agingLine := 0 }
    clips := { s.clips with held := [] }
    notices := { s.notices with pending := 0 }
    page := { s.page with owed := false } }

/-- `t` comes from `s` by replacing queue entries and by aging (R80, R91). -/
structure HeldWork (s t : State) : Prop where
  besides : besidesHeld t = besidesHeld s
  raises : RaisesOnly [.high .master, .high .proxy] s t

theorem HeldWork.refl (s : State) : HeldWork s s := ⟨rfl, raisesOnly_refl _ s⟩

theorem HeldWork.trans {s t u : State} (h : HeldWork s t) (k : HeldWork t u) : HeldWork s u :=
  ⟨k.besides.trans h.besides, raisesOnly_trans h.raises k.raises⟩

theorem HeldWork.ite {s t u : State} {p : Prop} [Decidable p] (h : HeldWork s t) (k : HeldWork s u) :
    HeldWork s (if p then t else u) := by
  split
  · exact h
  · exact k

theorem putQueue_heldWork (st : Stream) (es : List Entry) (s : State) : HeldWork s (putQueue st es s) := by
  have high : Notice.high st ∈ [Notice.high .master, .high .proxy] := by cases st <;> decide
  have put : HeldWork s { s with queue := { s.queue with
      queues := s.queue.queues.set ⟨es, decide (markBytes st s.queue.highMark ≤ bytesInUse es)⟩ st } } :=
    ⟨rfl, raisesOnly_of_pending rfl⟩
  exact put.trans (.ite ⟨rfl, raisesOnly_raise high _⟩ (.refl _))

theorem setAging_heldWork (x : Frame) (s : State) : HeldWork s (setAging x s) := by
  have lined : HeldWork s { s with queue := { s.queue with agingLine := x } } := ⟨rfl, raisesOnly_of_pending rfl⟩
  have dropped : ∀ u, HeldWork u (dropHeldMarks x u) := fun _ => ⟨rfl, raisesOnly_of_pending rfl⟩
  exact ((lined.trans (putQueue_heldWork .master _ _)).trans (putQueue_heldWork .proxy _ _)).trans (dropped _)

theorem ageToLimit_heldWork (fuel : Nat) (s : State) : HeldWork s (ageToLimit fuel s) := by
  induction fuel generalizing s with
  | zero => exact .refl s
  | succ fuel ih =>
    unfold ageToLimit
    split
    · exact .refl s
    · split
      · exact .refl s
      · exact (setAging_heldWork _ s).trans (ih _)

theorem discardHeld_heldWork (s : State) : HeldWork s (discardHeld s) := by
  have lined : HeldWork s { s with
      queue := { s.queue with agingLine := s.intake.counter }, clips := { s.clips with held := [] } } :=
    ⟨rfl, raisesOnly_of_pending rfl⟩
  exact (lined.trans (putQueue_heldWork .master _ _)).trans (putQueue_heldWork .proxy _ _)

theorem discardHeld_entries (st : Stream) (s : State) :
    (discardHeld s).entries st = (s.entries st).filter fun e => e.clip.isSome := by
  have kept : ∀ es : List Entry, (es.filter fun e => !e.isHeld) = es.filter fun e => e.clip.isSome := fun es =>
    List.filter_congr fun e _ => by simp [Entry.isHeld]
  simp only [discardHeld, putQueue_eq, kept]
  cases st with
  | master => rw [entries_withEntries_other _ _ (by decide), entries_withEntries]
  | proxy => rw [entries_withEntries]

theorem discardHeld_line (s : State) : (discardHeld s).queue.agingLine = s.intake.counter := by
  simp [discardHeld, putQueue]

theorem discardHeld_held (s : State) : (discardHeld s).clips.held = [] := by
  simp [discardHeld, putQueue]

/-! ## A depth that falls over single held frames -/

/-- The entries are single held frames, one after another from `f` on. -/
def SinglesFrom (f : Frame) (es : List Entry) : Prop :=
  ∀ i < es.length, ∀ e ∈ es[i]?, e.clip = none ∧ e.count = 1 ∧ e.frame = f + BitVec.ofNat 32 i

theorem SinglesFrom.cons {f : Frame} {old : Entry} {rest : List Entry} (h : SinglesFrom f (old :: rest)) :
    (old.clip = none ∧ old.count = 1 ∧ old.frame = f) ∧ SinglesFrom (f + 1) rest := by
  refine ⟨?_, fun i inside e place => ?_⟩
  · obtain ⟨held, one, frame⟩ := h 0 (Nat.zero_lt_succ _) old rfl
    exact ⟨held, one, by simpa using frame⟩
  · obtain ⟨held, one, frame⟩ := h (i + 1) (Nat.succ_lt_succ inside) e place
    exact ⟨held, one, by rw [frame]; bv_omega⟩

theorem SinglesFrom.above {f : Frame} {es : List Entry} (h : SinglesFrom f es) (short : es.length < 2 ^ 31) :
    ∀ y ∈ es, y.clip = none → y.count = 1 ∧ isBelow y.frame f = false := by
  intro y inside _
  obtain ⟨i, below, rfl⟩ := List.getElem_of_mem inside
  obtain ⟨-, one, frame⟩ := h i below es[i] (List.getElem?_eq_getElem below)
  refine ⟨one, ?_⟩
  rw [frame, isBelow]
  refine decide_eq_false fun between => ?_
  bv_omega

theorem SinglesFrom.heldFrames {f : Frame} {es : List Entry} (h : SinglesFrom f es) : heldFrames es = es.length := by
  induction es generalizing f with
  | nil => rfl
  | cons old rest ih =>
    obtain ⟨⟨held, one, -⟩, later⟩ := h.cons
    have tail := ih later
    unfold Sys2Proof.Machine.heldFrames at tail ⊢
    rw [List.filter_cons_of_pos (by simp [Entry.isHeld, held]), List.map_cons, List.sum_cons, tail, one, List.length_cons,
      Nat.add_comm]

/-- One round of aging over single held frames takes the oldest. -/
theorem setAging_singles {u : State} {old : Entry} {rest : List Entry} (entries : u.entries .master = old :: rest)
    (singles : SinglesFrom old.frame (old :: rest)) (short : (old :: rest).length < 2 ^ 31)
    (clips : ∀ e ∈ u.entries .proxy, e.clip ≠ none) :
    (setAging (old.frame + 1) u).entries .master = rest
      ∧ (setAging (old.frame + 1) u).entries .proxy = u.entries .proxy
      ∧ (setAging (old.frame + 1) u).queue.agingLine = old.frame + 1
      ∧ (setAging (old.frame + 1) u).clips.held = u.clips.held.filter fun m => !isBelow m.frame (old.frame + 1) := by
  obtain ⟨⟨held, one, -⟩, later⟩ := singles.cons
  have masters : agedEntries u.rate (old.frame + 1) (u.entries .master) = rest := by
    rw [entries, agedEntries_oldest _ _ held one,
      agedEntries_same (later.above (Nat.lt_of_succ_lt (by simpa using short)))]
  rw [setAging_eq masters (agedEntries_clips clips)]
  refine ⟨?_, entries_withEntries _ _ _, ?_, ?_⟩
  · rw [entries_withEntries_other _ _ (by decide), entries_withEntries]
  · simp [withEntries, agedTo]
  · rw [clips_withEntries, clips_withEntries]
    rfl

theorem ageToLimit_singles (n fuel : Nat) {u : State} {f : Frame} (singles : SinglesFrom f (u.entries .master))
    (more : (u.entries .master).length = u.queue.limit + n) (short : (u.entries .master).length < 2 ^ 31)
    (clips : ∀ e ∈ u.entries .proxy, e.clip ≠ none) :
    (ageToLimit (n + fuel) u).entries .master = (u.entries .master).drop n
      ∧ (ageToLimit (n + fuel) u).entries .proxy = u.entries .proxy
      ∧ (ageToLimit (n + fuel) u).queue.agingLine = (if n = 0 then u.queue.agingLine else f + BitVec.ofNat 32 n)
      ∧ (ageToLimit (n + fuel) u).clips.held = u.clips.held.filter fun m =>
        (List.range n).all fun i => !isBelow m.frame (f + BitVec.ofNat 32 (i + 1)) := by
  induction n generalizing u f with
  | zero =>
    have within : ageToLimit (0 + fuel) u = u := by
      rw [Nat.zero_add]
      cases fuel with
      | zero => rfl
      | succ fuel => rw [ageToLimit, if_pos (by rw [singles.heldFrames, more]; exact Nat.le_refl _)]
    rw [within]
    simp
  | succ n ih =>
    rcases entries : u.entries .master with _ | ⟨old, rest⟩
    · simp [entries] at more
    rw [entries] at singles more short
    obtain ⟨⟨held, -, frame⟩, later⟩ := singles.cons
    subst frame
    have over_limit : ¬ heldFrames (u.entries .master) ≤ u.queue.limit := by
      rw [entries, singles.heldFrames, more]
      omega
    have round : ageToLimit (n + 1 + fuel) u = ageToLimit (n + fuel) (setAging (old.frame + 1) u) := by
      rw [Nat.add_right_comm, ageToLimit, if_neg over_limit, entries]
      simp [firstHeld, Entry.isHeld, held]
    obtain ⟨master, proxy, line, marks⟩ := setAging_singles entries singles short clips
    have limit : (setAging (old.frame + 1) u).queue.limit = u.queue.limit :=
      (congrArg (fun v => v.queue.limit) (setAging_heldWork (old.frame + 1) u).besides :)
    obtain ⟨master', proxy', line', marks'⟩ := ih (u := setAging (old.frame + 1) u) (by rw [master]; exact later)
      (by rw [master, limit]; exact Nat.succ_injective more)
      (by rw [master]; exact Nat.lt_of_succ_lt (by simpa using short)) (by rw [proxy]; exact clips)
    rw [round]
    refine ⟨by rw [master', master]; rfl, proxy'.trans proxy, ?_, ?_⟩
    · rw [line', line]
      rcases n with _ | n
      · rfl
      · simp only [Nat.succ_ne_zero, if_false]
        bv_omega
    · rw [marks', marks, List.filter_filter]
      refine List.filter_congr fun m _ => ?_
      have next : ∀ i, old.frame + 1 + BitVec.ofNat 32 (i + 1) = old.frame + BitVec.ofNat 32 (i + 1 + 1) := fun i => by
        bv_omega
      simp only [next]
      rw [List.range_succ_eq_map, List.all_cons, List.all_map, Bool.and_comm]
      rfl

end Sys2Proof.Proofs
end

section
/-! SUPPORT. TUNE's pre-roll depth and high mark, field by field (R78, R79, R91, R96). -/

namespace Sys2Proof.Proofs

open Sys2Proof.Machine Sys2Proof.Laws

/-- The depth and the limit taken, before their effects. -/
def withDepth (f : TuneFields) (s : State) : State :=
  { s with queue := { s.queue with depth := min f.depth 30, limit := prerollLimit s.rate? (min f.depth 30) } }

/-- What a depth of `old` before makes of the held entries (R79). -/
def heldUnder (old : Nat) (s : State) : State :=
  if s.queue.depth = old then s
  else if s.queue.depth = 0 then discardHeld s
  else if s.queue.depth < old then enforceLimit s
  else s

theorem heldUnder_heldWork (old : Nat) (s : State) : HeldWork s (heldUnder old s) :=
  .ite (.refl s) (.ite (discardHeld_heldWork s) (.ite (ageToLimit_heldWork _ s) (.refl s)))

theorem heldUnder_rises {old : Nat} {s : State} (rises : old ≤ s.queue.depth) : heldUnder old s = s := by
  unfold heldUnder
  split_ifs with same zero falls
  · rfl
  · omega
  · omega
  · rfl

theorem heldUnder_zero {old : Nat} {s : State} (zero : s.queue.depth = 0) (before : old ≠ 0) :
    heldUnder old s = discardHeld s := by
  rw [heldUnder, if_neg (by omega), if_pos zero]

theorem heldUnder_falls {old : Nat} {s : State} (some : s.queue.depth ≠ 0) (falls : s.queue.depth < old) :
    heldUnder old s = enforceLimit s := by
  rw [heldUnder, if_neg (by omega), if_neg some, if_pos falls]

/-- Where the held master frames are within the limit, a depth above 0 changes nothing held. -/
theorem heldUnder_within {old : Nat} {s : State} (some : s.queue.depth ≠ 0)
    (within : heldFrames (s.entries .master) ≤ s.queue.limit) : heldUnder old s = s := by
  rcases Nat.lt_or_ge s.queue.depth old with falls | rises
  · rw [heldUnder_falls some falls, enforceLimit_within within]
  · exact heldUnder_rises rises

/-- A frame raised to an intake mark, where there is one. -/
def upTo (m : Option Frame) (x : Frame) : Frame :=
  match m with
  | none => x
  | some y => raiseTo y x

theorem floorAtPrerollOn_eq (s : State) : floorAtPrerollOn s = { s with clips := { s.clips with
    rollFloor := upTo s.queue.intakeMarks.proxy (upTo s.queue.intakeMarks.master
      (raiseTo s.queue.agingLine s.clips.rollFloor)) } } := by
  unfold floorAtPrerollOn
  dsimp only
  cases s.queue.intakeMarks.master <;> cases s.queue.intakeMarks.proxy <;> rfl

theorem tuneDepth_eq (f : TuneFields) (s : State) :
    tuneDepth f s = if (heldUnder s.queue.depth (withDepth f s)).prerollOn && !s.prerollOn
      then floorAtPrerollOn (heldUnder s.queue.depth (withDepth f s))
      else heldUnder s.queue.depth (withDepth f s) := rfl

theorem tuneDepth_queue (f : TuneFields) (s : State) :
    (tuneDepth f s).queue = (heldUnder s.queue.depth (withDepth f s)).queue := by
  rw [tuneDepth_eq, floorAtPrerollOn_eq]
  split <;> rfl

theorem tuneDepth_held (f : TuneFields) (s : State) :
    (tuneDepth f s).clips.held = (heldUnder s.queue.depth (withDepth f s)).clips.held := by
  rw [tuneDepth_eq, floorAtPrerollOn_eq]
  split <;> rfl

theorem tuneDepth_entries (f : TuneFields) (s : State) (st : Stream) :
    (tuneDepth f s).entries st = (heldUnder s.queue.depth (withDepth f s)).entries st := by
  rw [State.entries, tuneDepth_queue]
  rfl

/-- Where pre-roll goes on, the depth before was 0, and nothing held has gone (R96). -/
theorem tuneDepth_rollFloor (f : TuneFields) (s : State) : (tuneDepth f s).clips.rollFloor =
    if min f.depth 30 ≠ 0 ∧ s.queue.depth = 0 ∧ s.intake.geometry ≠ none then
      upTo s.queue.intakeMarks.proxy (upTo s.queue.intakeMarks.master
        (raiseTo s.queue.agingLine s.clips.rollFloor))
    else s.clips.rollFloor := by
  have work := (heldUnder_heldWork s.queue.depth (withDepth f s)).besides
  have depth : (heldUnder s.queue.depth (withDepth f s)).queue.depth = min f.depth 30 :=
    (congrArg (fun u => u.queue.depth) work :)
  have intake : (heldUnder s.queue.depth (withDepth f s)).intake = s.intake := (congrArg State.intake work :)
  have floor : (heldUnder s.queue.depth (withDepth f s)).clips.rollFloor = s.clips.rollFloor :=
    (congrArg (fun u => u.clips.rollFloor) work :)
  have on : ((heldUnder s.queue.depth (withDepth f s)).prerollOn && !s.prerollOn) = true ↔
      min f.depth 30 ≠ 0 ∧ s.queue.depth = 0 ∧ s.intake.geometry ≠ none := by
    simp only [State.prerollOn, depth, intake]
    cases s.intake.geometry with
    | none => simp
    | some g => simp [Nat.pos_iff_ne_zero]
  rw [tuneDepth_eq]
  by_cases goes : min f.depth 30 ≠ 0 ∧ s.queue.depth = 0 ∧ s.intake.geometry ≠ none
  · have same : heldUnder s.queue.depth (withDepth f s) = withDepth f s :=
      heldUnder_rises (goes.2.1 ▸ Nat.zero_le _)
    rw [if_pos (on.mpr goes), if_pos goes, floorAtPrerollOn_eq, same]
    rfl
  · rw [if_neg (mt on.mp goes), if_neg goes, floor]

/-- `s` with everything blanked that the effects of a depth may change. -/
def besidesFloor (s : State) : State :=
  besidesHeld { s with clips := { s.clips with rollFloor := 0 } }

theorem tuneDepth_besides (f : TuneFields) (s : State) : besidesFloor (tuneDepth f s) = besidesFloor (withDepth f s) := by
  have held : besidesFloor (heldUnder s.queue.depth (withDepth f s)) = besidesFloor (withDepth f s) :=
    (congrArg (fun u => { u with clips := { u.clips with rollFloor := 0 } }) (heldUnder_heldWork _ _).besides :)
  rw [tuneDepth_eq, floorAtPrerollOn_eq]
  split
  · exact held
  · exact held

theorem tuneDepth_raises (f : TuneFields) (s : State) :
    RaisesOnly [.high .master, .high .proxy] s (tuneDepth f s) := by
  have held : RaisesOnly [.high .master, .high .proxy] s (heldUnder s.queue.depth (withDepth f s)) :=
    raisesOnly_trans (raisesOnly_of_pending rfl) (heldUnder_heldWork _ (withDepth f s)).raises
  rw [tuneDepth_eq, floorAtPrerollOn_eq]
  split
  · exact raisesOnly_trans held (raisesOnly_of_pending rfl)
  · exact held

/-! ## The high mark -/

theorem refreshMarks_heldWork (s : State) : HeldWork s (refreshMarks s) :=
  (putQueue_heldWork .master _ s).trans (putQueue_heldWork .proxy _ _)

theorem refreshMarks_entries (st : Stream) (s : State) : (refreshMarks s).entries st = s.entries st := by
  rw [refreshMarks, putQueue_eq, putQueue_eq]
  cases st with
  | master => rw [entries_withEntries_other _ _ (by decide), entries_withEntries]
  | proxy => rw [entries_withEntries]

theorem refreshMarks_line (s : State) : (refreshMarks s).queue.agingLine = s.queue.agingLine := by
  simp [refreshMarks, putQueue]

theorem refreshMarks_clips (s : State) : (refreshMarks s).clips = s.clips := by
  simp [refreshMarks, putQueue]

/-- The high mark taken, before its flags. -/
def withHighMark (f : TuneFields) (s : State) : State :=
  { s with queue := { s.queue with highMark := clamp 50 95 f.highMark } }

theorem tuneHighMark_eq (f : TuneFields) (s : State) : tuneHighMark f s = withHighMark f s
    ∨ tuneHighMark f s = refreshMarks (withHighMark f s) := by
  by_cases same : clamp 50 95 f.highMark = s.queue.highMark
  · refine .inl ?_
    rw [tuneHighMark, if_pos same, withHighMark, same]
  · exact .inr (if_neg same)

theorem tuneHighMark_heldWork (f : TuneFields) (s : State) : HeldWork (withHighMark f s) (tuneHighMark f s) := by
  rcases tuneHighMark_eq f s with same | changed
  · rw [same]
    exact .refl _
  · rw [changed]
    exact refreshMarks_heldWork _

theorem tuneHighMark_entries (f : TuneFields) (s : State) (st : Stream) :
    (tuneHighMark f s).entries st = s.entries st := by
  rcases tuneHighMark_eq f s with same | changed
  · rw [same]
    rfl
  · rw [changed, refreshMarks_entries]
    rfl

theorem tuneHighMark_line (f : TuneFields) (s : State) :
    (tuneHighMark f s).queue.agingLine = s.queue.agingLine := by
  rcases tuneHighMark_eq f s with same | changed
  · rw [same]
    rfl
  · rw [changed, refreshMarks_line]
    rfl

theorem tuneHighMark_clips (f : TuneFields) (s : State) : (tuneHighMark f s).clips = s.clips := by
  rcases tuneHighMark_eq f s with same | changed
  · rw [same]
    rfl
  · rw [changed, refreshMarks_clips]
    rfl

end Sys2Proof.Proofs
end

section
/-! SUPPORT. The parts of a TUNE, field by field (R29, R51, R113, R115, R124, R136, R137, R153). -/

namespace Sys2Proof.Proofs

open Sys2Proof.Machine Sys2Proof.Laws

/-! ## The queues -/

/-- `s` with a TUNE's master, governor and Queue Manager fields taken. -/
def queuesTuned (f : TuneFields) (s : State) : State :=
  tuneHighMark f (tuneDepth f (tuneGovernor f (tuneMaster f s)))

theorem queuesTuned_besides (f : TuneFields) (s : State) : besidesFloor (queuesTuned f s)
    = besidesFloor (withHighMark f (withDepth f (tuneGovernor f (tuneMaster f s)))) := by
  have mark : besidesFloor (queuesTuned f s)
      = besidesFloor (withHighMark f (tuneDepth f (tuneGovernor f (tuneMaster f s)))) :=
    (congrArg (fun u => { u with clips := { u.clips with rollFloor := 0 } }) (tuneHighMark_heldWork f _).besides :)
  have depth := congrArg (fun u => { u with queue := { u.queue with highMark := clamp 50 95 f.highMark } })
    (tuneDepth_besides f (tuneGovernor f (tuneMaster f s)))
  exact mark.trans (depth :)

/-- What a TUNE's Queue Manager fields leave behind, of all that it or its later parts set. -/
def setView (s : State) :=
  (s.master, s.governor, s.queue.depth, s.queue.highMark, s.queue.limit, s.lines, s.arbiter, s.writers, s.clips.tallyMode,
    s.clips.lamp, s.clips.blinkTimer, s.clips.table)

theorem setView_besidesFloor (s : State) : setView (besidesFloor s) = setView s := rfl

theorem queuesTuned_setView (f : TuneFields) (s : State) : setView (queuesTuned f s)
    = ({ s.master with settings := handledMaster f }, governorTune s.rate? f.governor s.governor, min f.depth 30,
      clamp 50 95 f.highMark, prerollLimit s.rate? (min f.depth 30), s.lines, s.arbiter, s.writers, s.clips.tallyMode,
      s.clips.lamp, s.clips.blinkTimer, s.clips.table) := by
  rw [← setView_besidesFloor, queuesTuned_besides]
  rfl

theorem queuesTuned_raises (f : TuneFields) (s : State) :
    RaisesOnly [.high .master, .high .proxy] s (queuesTuned f s) := by
  have depth : RaisesOnly [.high .master, .high .proxy] s (tuneDepth f (tuneGovernor f (tuneMaster f s))) :=
    tuneDepth_raises f (tuneGovernor f (tuneMaster f s))
  have mark : ∀ u, RaisesOnly [.high .master, .high .proxy] u (tuneHighMark f u) := fun u =>
    raisesOnly_trans (t := withHighMark f u) (raisesOnly_of_pending rfl) (tuneHighMark_heldWork f u).raises
  exact raisesOnly_trans depth (mark _)

/-! ## The tally and the writers -/

/-- What the tally, the blink time, the gap times and the watermark of a TUNE leave as it was. -/
def lateView (s : State) :=
  (s.intake, s.slots, s.inputs, s.master, s.proxy, s.governor, s.queue, s.lines, s.walker, s.arbiter, s.notices.log,
    s.notices.later, s.shared, s.clips.table, s.clips.held, s.clips.rollFloor)

theorem tuneTally_lateView (f : TuneFields) (s : State) : lateView (tuneTally f s) = lateView s := by
  unfold tuneTally
  dsimp only
  split <;> rfl

theorem refreshBelow_lateView (st : Stream) (s : State) : lateView (refreshBelow st s) = lateView s := by
  have raised : ∀ b n u, lateView (raiseIf b n u) = lateView u := fun b n u => by cases b <;> rfl
  exact raised _ _ _

theorem tuneWatermark_lateView (f : TuneFields) (s : State) : lateView (tuneWatermark f s) = lateView s := by
  unfold tuneWatermark
  dsimp only
  split
  · rfl
  · rw [refreshBelow_lateView, refreshBelow_lateView]
    rfl

theorem tuneTally_tallyMode (f : TuneFields) (s : State) : (tuneTally f s).clips.tallyMode = tallyModeOf f.tally := by
  unfold tuneTally
  dsimp only
  split
  · next same => exact same.symm
  · rfl

theorem tuneTally_same {f : TuneFields} {s : State} (same : tallyModeOf f.tally = s.clips.tallyMode) :
    tuneTally f s = s := if_pos same

theorem tuneTally_changed {f : TuneFields} {s : State} (changed : tallyModeOf f.tally ≠ s.clips.tallyMode) :
    tuneTally f s = { s with clips := { s.clips with
      tallyMode := tallyModeOf f.tally, lamp := lampUnder (tallyModeOf f.tally) s, blinkTimer := none } } := if_neg changed

theorem refreshBelow_clips (st : Stream) (s : State) : (refreshBelow st s).clips = s.clips := by
  simp [refreshBelow]

theorem tuneWatermark_clips (f : TuneFields) (s : State) : (tuneWatermark f s).clips = s.clips := by
  unfold tuneWatermark
  dsimp only
  split
  · rfl
  · rw [refreshBelow_clips, refreshBelow_clips]

/-- A writer's record of its gaps and of a RELINQUISH in its hand. -/
def gapView (w : Writer) := (w.gapTimer, w.gapCount, w.relinquish)

theorem refreshBelow_gapView (st other : Stream) (s : State) :
    gapView ((refreshBelow other s).writer st) = gapView (s.writer st) := by
  rw [refreshBelow, writer_raiseIf]
  cases st <;> cases other <;> rfl

theorem tuneWatermark_gapView (f : TuneFields) (s : State) (st : Stream) :
    gapView ((tuneWatermark f s).writer st) = gapView (s.writer st) := by
  unfold tuneWatermark
  dsimp only
  split
  · rfl
  · rw [refreshBelow_gapView, refreshBelow_gapView]
    rfl

theorem tuneGap_writer (f : TuneFields) (s : State) (st : Stream) :
    (tuneGap f s).writer st = holdGap (min f.gapTime 1000) (s.writer st) := by
  cases st <;> rfl

/-- The settings of the writers that a watermark's notices leave. -/
def writerSettings (s : State) := (s.writers.watermark, s.writers.retry, s.writers.gapTime)

theorem refreshBelow_writerSettings (st : Stream) (s : State) :
    writerSettings (refreshBelow st s) = writerSettings s := by
  have raised : ∀ b n u, writerSettings (raiseIf b n u) = writerSettings u := fun b n u => by cases b <;> rfl
  exact raised _ _ _

theorem tuneWatermark_writerSettings (f : TuneFields) (s : State) : writerSettings (tuneWatermark f s)
    = (min f.watermark 47, s.writers.retry, s.writers.gapTime) := by
  unfold tuneWatermark
  dsimp only
  split
  · next same => rw [same]; rfl
  · rw [refreshBelow_writerSettings, refreshBelow_writerSettings]
    rfl

theorem tuneWatermark_raises (f : TuneFields) (s : State) : RaisesOnly followUps s (tuneWatermark f s) := by
  unfold tuneWatermark
  dsimp only
  split
  · exact raisesOnly_refl _ s
  · have marked : RaisesOnly followUps s { s with writers := { s.writers with watermark := min f.watermark 47 } } :=
      raisesOnly_of_pending rfl
    exact raisesOnly_trans (raisesOnly_trans marked (refreshBelow_followedBy .master _).raises)
      (refreshBelow_followedBy .proxy _).raises

theorem tuneTally_notices (f : TuneFields) (s : State) : (tuneTally f s).notices = s.notices := by
  unfold tuneTally
  dsimp only
  split <;> rfl

/-! ## The whole TUNE -/

/-- `s` with all but the priorities and the tolerance of a TUNE taken. -/
def writersTuned (f : TuneFields) (s : State) : State :=
  tuneWatermark f (tuneGap f (tuneBlink f (tuneTally f (queuesTuned f s))))

theorem tuneTaken_eq (f : TuneFields) (s : State) :
    tuneTaken f s = tuneTolerance f (tunePriorities f (writersTuned f s)) := rfl

theorem writersTuned_lateView (f : TuneFields) (s : State) :
    lateView (writersTuned f s) = lateView (queuesTuned f s) := by
  have kept : lateView (tuneGap f (tuneBlink f (tuneTally f (queuesTuned f s))))
      = lateView (tuneTally f (queuesTuned f s)) := rfl
  rw [writersTuned, tuneWatermark_lateView, kept, tuneTally_lateView]

theorem raisesOnly_widen {few many : List Notice} {s t : State} (sub : ∀ n ∈ few, n ∈ many)
    (raises : RaisesOnly few s t) : RaisesOnly many s t := fun n =>
  ⟨(raises n).1, fun pending => ((raises n).2 pending).imp id (sub n)⟩

theorem tuneTaken_raises (f : TuneFields) (s : State) :
    RaisesOnly (.high .master :: .high .proxy :: followUps) s (tuneTaken f s) := by
  have quiet : ∀ u, RaisesOnly followUps u (tuneGap f (tuneBlink f (tuneTally f u))) := fun u =>
    raisesOnly_of_pending (congrArg NoticeUnit.pending (tuneTally_notices f u))
  have late : RaisesOnly followUps (queuesTuned f s) (writersTuned f s) :=
    raisesOnly_trans (quiet _) (tuneWatermark_raises f _)
  exact raisesOnly_trans (raisesOnly_widen (by decide) (queuesTuned_raises f s))
    (raisesOnly_trans (raisesOnly_widen (by decide) late) (raisesOnly_of_pending rfl))

/-- All but the walker that no part of a TUNE touches. -/
def unmoved (s : State) :=
  (s.intake, s.slots, s.inputs, s.proxy, s.notices.log, s.notices.later, s.shared, s.clips.table)

/-- All that no part of a TUNE touches. -/
def untuned (s : State) := (s.walker, unmoved s)

theorem untuned_besidesFloor (s : State) : untuned (besidesFloor s) = untuned s := rfl

theorem tuneTaken_untuned (f : TuneFields) (s : State) : untuned (tuneTaken f s) = untuned s := by
  have late := writersTuned_lateView f s
  have early : untuned (queuesTuned f s) = untuned s := by
    rw [← untuned_besidesFloor, queuesTuned_besides]
    rfl
  rw [← early]
  simp only [lateView, Prod.mk.injEq] at late
  simp only [untuned, unmoved, Prod.mk.injEq, tuneTaken_eq]
  simp_all [tuneTolerance, tunePriorities, changeSync]

end Sys2Proof.Proofs
end

section
/-! SUPPORT. The fields that a TUNE takes, and how many of them it adjusts (R29, R51, R173). -/

namespace Sys2Proof.Proofs

open Sys2Proof.Machine Sys2Proof.Laws

theorem clamp_eq {lo hi : Nat} (ordered : lo ≤ hi) (v : Nat) : clamp lo hi v = max lo (min v hi) := by
  rw [clamp]
  omega

theorem clampInt_eq {lo hi : Int} (ordered : lo ≤ hi) (v : Int) : clampInt lo hi v = max lo (min v hi) := by
  rw [clampInt]
  omega

theorem handledMaster_eq (f : TuneFields) : handledMaster f = ⟨max 1 (min f.qm 63),
    if f.cap = 0 then 0 else max f.cap 64, f.offsets.map fun o => max (-8) (min o 8)⟩ := by
  rw [handledMaster, clamp_eq (by decide), handledCap]
  congr 1
  exact List.map_congr_left fun o _ => clampInt_eq (by decide) o

theorem governorModeOf_eq (n : Nat) : governorModeOf n = [GovernorMode.off, .degrade, .skip].getD (min n 2) .off := by
  match n with
  | 0 => rfl
  | 1 => rfl
  | n + 2 => rw [Nat.min_eq_right (by omega)]; rfl

theorem governorModeOf_code (n : Nat) : (governorModeOf n).code = min n 2 := by
  match n with
  | 0 => rfl
  | 1 => rfl
  | n + 2 => rw [Nat.min_eq_right (by omega)]; rfl

theorem tallyModeOf_eq (n : Nat) : tallyModeOf n = [TallyMode.auto, .forceOn, .forceOff].getD (min n 2) .auto := by
  match n with
  | 0 => rfl
  | 1 => rfl
  | n + 2 => rw [Nat.min_eq_right (by omega)]; rfl

theorem handledInputs_eq (f : GovernorFields) :
    let qmax := max 1 (min f.qmax 63)
    let qmin := min (max 1 (min f.qmin 63)) qmax
    handledInputs f = ⟨[GovernorMode.off, .degrade, .skip].getD (min f.mode 2) .off, max 500 (min f.rate 40000),
      if f.depth < 8 then 4 else if f.depth < 16 then 8 else if f.depth < 32 then 16 else 32,
      max 4 (min f.threshold 64), qmin, qmax, max qmin (min (max 1 (min f.qstart 63)) qmax)⟩ := by
  intro qmax qmin
  have ordered : qmin ≤ qmax := Nat.min_le_right _ _
  simp only [handledInputs, governorModeOf_eq, depthOf, clamp_eq (show 1 ≤ 63 by decide),
    clamp_eq (show 500 ≤ 40000 by decide), clamp_eq (show 4 ≤ 64 by decide)]
  rw [clamp_eq ordered]

theorem handledInputs_ordered (f : GovernorFields) : (handledInputs f).qmin ≤ (handledInputs f).qmax :=
  Nat.min_le_right _ _

theorem handledBlink_eq (ms : Nat) : handledBlink ms = if ms = 0 then 0 else max 50 (min ms 500) := by
  rw [handledBlink, clamp_eq (by decide)]

/-! ## Counting -/

theorem countDifferentInt_zip (a b : List Int) :
    countDifferentInt a b = ((a.zip b).filter fun p => p.1 != p.2).length := by
  induction a generalizing b with
  | nil => rfl
  | cons v rest ih =>
    cases b with
    | nil => rfl
    | cons w more =>
      rw [countDifferentInt, ih, differsInt, List.zip_cons_cons]
      by_cases same : v = w <;> simp [same, Nat.add_comm]

theorem length_filter_over (l : List Nat) : (l.filter fun p => decide (1 < p)).length
    = (l.map fun p => differs (min p 1) p).sum := by
  induction l with
  | nil => rfl
  | cons p rest ih =>
    rw [List.map_cons, List.sum_cons, ← ih, differs]
    by_cases above : 1 < p
    · simp [above, show min p 1 ≠ p by omega, Nat.add_comm]
    · simp [above, show min p 1 = p by omega]

theorem differs_min (n : Nat) : (if 2 < n then 1 else 0) = differs (min n 2) n := by
  rw [differs]
  split_ifs <;> omega

theorem tuneAdjusted_eq (b : Block) :
    let i := handledInputs b.tuneFields.governor
    let m := handledMaster b.tuneFields
    let taken : List Nat :=
      [m.step, m.cap, min (b.u8 40) 2, i.rate, i.depth, i.threshold, i.qmin, i.qmax, i.qstart, min (b.u8 48) 30,
        max 50 (min (b.u8 49) 95), min (b.u8 50) 2, handledBlink (b.field 52 2), min (b.u8 54) 47, min (b.u8 55) 15,
        min (b.field 56 2) 1000, min (b.u8 58) 1, min (b.u8 59) 1, min (b.u8 60) 1, min (b.u8 61) 1,
        min (b.field 62 2) 2048]
    let given : List Nat :=
      [b.u8 32, b.field 34 2, b.u8 40, b.field 42 2, b.u8 41, b.u8 44, b.u8 45, b.u8 46, b.u8 47, b.u8 48, b.u8 49,
        b.u8 50, b.field 52 2, b.u8 54, b.u8 55, b.field 56 2, b.u8 58, b.u8 59, b.u8 60, b.u8 61, b.field 62 2]
    tuneAdjusted b.tuneFields = ((taken.zip given).filter fun p => p.1 != p.2).length
      + ((m.offsets.zip [b.i8 36, b.i8 37, b.i8 38, b.i8 39]).filter fun p => p.1 != p.2).length := by
  intro i m taken given
  rw [← countDifferent_zip, ← countDifferentInt_zip]
  simp only [taken, given, countDifferent, tuneAdjusted, masterAdjusted, governorAdjusted, prioritiesAdjusted,
    length_filter_over, differs_min, clamp_eq (show 50 ≤ 95 by decide)]
  have mode : i.mode.code = min (b.u8 40) 2 := governorModeOf_code _
  simp only [← mode, Block.tuneFields, List.map_cons, List.map_nil, List.sum_cons, List.sum_nil, i, m]
  omega

end Sys2Proof.Proofs
end

section
/-! SUPPORT. What a TUNE does to the governor (R64 to R67), and the statement on TUNE. -/

namespace Sys2Proof.Proofs

open Sys2Proof.Machine Sys2Proof.Laws

/-! ## The governor -/

theorem tuneBounds_eq (old : GovernorInputs) {g : Governor} (ordered : g.inputs.qmin ≤ g.inputs.qmax) :
    tuneBounds old g = { g with
      step := if g.inputs.qmin = old.qmin ∧ g.inputs.qmax = old.qmax then g.step
        else max g.inputs.qmin (min g.step g.inputs.qmax) } := by
  by_cases same : g.inputs.qmin = old.qmin ∧ g.inputs.qmax = old.qmax
  · simp [tuneBounds, same]
  · rw [tuneBounds, if_pos (by tauto), if_neg same, clamp_eq ordered]

theorem tuneOff_eq (g : Governor) : tuneOff g = { g with
    credit := if g.inputs.mode = .off then (g.burst : Int) else g.credit
    step := if g.inputs.mode = .off then g.inputs.qstart else g.step } := by
  by_cases off : g.inputs.mode = .off
  · simp [tuneOff, off]
  · simp [tuneOff, off]

/-- A rate, or an effective burst depth, that changes (R64). -/
def allowanceChanged (old new : GovernorInputs) : Prop :=
  new.rate ≠ old.rate ∨ effectiveDepth new ≠ effectiveDepth old

theorem tuneAllowance_changed {r : Rate} {old : GovernorInputs} {g : Governor} (changed : allowanceChanged old g.inputs) :
    tuneAllowance r old g = { derive r g with
      credit := max (-((derive r g).burst : Int)) (min g.credit (derive r g).burst), remainder := 0 } := by
  unfold allowanceChanged at changed
  rw [tuneAllowance, if_pos changed]
  simp only
  rw [clampInt_eq (by omega)]
  rfl

theorem tuneAllowance_kept {r : Rate} {old : GovernorInputs} {g : Governor} (kept : ¬ allowanceChanged old g.inputs) :
    tuneAllowance r old g = { g with skipAt :=
      if g.inputs.threshold = old.threshold then g.skipAt else g.nominal * g.inputs.threshold / 16 } := by
  unfold allowanceChanged at kept
  rw [tuneAllowance, if_neg kept]
  by_cases same : g.inputs.threshold = old.threshold
  · simp [same]
  · simp [same]

/-- With a rate in force the parts of a TUNE's effect on the governor follow one another (R64 to R67). -/
theorem governorTune_eq (r : Rate) (f : GovernorFields) (g : Governor) : governorTune (some r) f g
    = tuneOff (tuneBounds g.inputs (tuneAllowance r g.inputs { g with inputs := handledInputs f })) := rfl

theorem governorTune_inputs (rate : Option Rate) (f : GovernorFields) (g : Governor) :
    (governorTune rate f g).inputs = handledInputs f := by
  cases rate with
  | none => rfl
  | some r =>
    rw [governorTune_eq, tuneOff_eq, tuneBounds, tuneAllowance]
    split_ifs <;> rfl

theorem governorTune_changed {r : Rate} {f : GovernorFields} {g : Governor}
    (changed : allowanceChanged g.inputs (handledInputs f)) : governorTune (some r) f g
    = tuneOff (tuneBounds g.inputs { derive r { g with inputs := handledInputs f } with
        credit := max (-((derive r { g with inputs := handledInputs f }).burst : Int))
          (min g.credit (derive r { g with inputs := handledInputs f }).burst)
        remainder := 0 }) := by
  rw [governorTune_eq, tuneAllowance_changed (g := { g with inputs := handledInputs f }) changed]

theorem governorTune_kept {r : Rate} {f : GovernorFields} {g : Governor}
    (kept : ¬ allowanceChanged g.inputs (handledInputs f)) : governorTune (some r) f g
    = tuneOff (tuneBounds g.inputs { g with
        inputs := handledInputs f
        skipAt := if (handledInputs f).threshold = g.inputs.threshold then g.skipAt
          else g.nominal * (handledInputs f).threshold / 16 }) := by
  rw [governorTune_eq, tuneAllowance_kept (g := { g with inputs := handledInputs f }) kept]

theorem governorTune_step (r : Rate) (f : GovernorFields) (g : Governor) : (governorTune (some r) f g).step =
    if (handledInputs f).mode = .off then (handledInputs f).qstart
    else if (handledInputs f).qmin = g.inputs.qmin ∧ (handledInputs f).qmax = g.inputs.qmax then g.step
    else max (handledInputs f).qmin (min g.step (handledInputs f).qmax) := by
  have ordered := handledInputs_ordered f
  by_cases changed : allowanceChanged g.inputs (handledInputs f)
  · rw [governorTune_changed changed, tuneOff_eq, tuneBounds_eq _ ordered]
    rfl
  · rw [governorTune_kept changed, tuneOff_eq, tuneBounds_eq _ ordered]

theorem governorTune_rest (r : Rate) (f : GovernorFields) (g : Governor) :
    (governorTune (some r) f g).openPicture = g.openPicture ∧ (governorTune (some r) f g).overruns = g.overruns
      ∧ (governorTune (some r) f g).repeats = g.repeats := by
  have ordered := handledInputs_ordered f
  by_cases changed : allowanceChanged g.inputs (handledInputs f)
  · rw [governorTune_changed changed, tuneOff_eq, tuneBounds_eq _ ordered]
    exact ⟨rfl, rfl, rfl⟩
  · rw [governorTune_kept changed, tuneOff_eq, tuneBounds_eq _ ordered]
    exact ⟨rfl, rfl, rfl⟩

theorem governorTune_off {r : Rate} {f : GovernorFields} {g : Governor} (off : (handledInputs f).mode = .off) :
    (governorTune (some r) f g).credit = (governorTune (some r) f g).burst := by
  have inputs := governorTune_inputs (some r) f g
  rw [governorTune_eq, tuneOff_eq] at inputs ⊢
  exact if_pos ((congrArg GovernorInputs.mode inputs).trans off)

/-! ## The parts together -/

/-- What the priorities and the tolerance of a TUNE leave as it was. -/
def lastView (s : State) := (s.master, s.governor, s.queue, s.clips, s.writers)

theorem last_lastView (f : TuneFields) (s : State) :
    lastView (tuneTolerance f (tunePriorities f s)) = lastView s := rfl

theorem tuneTaken_lastView (f : TuneFields) (s : State) : lastView (tuneTaken f s) = lastView (writersTuned f s) := by
  rw [tuneTaken_eq, last_lastView]

theorem tuneTolerance_lines (f : TuneFields) (s : State) : (tuneTolerance f (tunePriorities f s)).lines
    = { s.lines with sync := { s.lines.sync with tolerance := min f.tolerance 2048 } } := rfl

theorem tuneTaken_fields (f : TuneFields) (s : State) :
    (tuneTaken f s).master = { s.master with settings := handledMaster f }
      ∧ (tuneTaken f s).governor = governorTune s.rate? f.governor s.governor
      ∧ (tuneTaken f s).queue = (queuesTuned f s).queue
      ∧ (tuneTaken f s).lines = { s.lines with sync := { s.lines.sync with tolerance := min f.tolerance 2048 } }
      ∧ (tuneTaken f s).clips.held = (queuesTuned f s).clips.held
      ∧ (tuneTaken f s).clips.rollFloor = (queuesTuned f s).clips.rollFloor := by
  have early := queuesTuned_setView f s
  have late := writersTuned_lateView f s
  have last := tuneTaken_lastView f s
  simp only [setView, Prod.mk.injEq] at early
  simp only [lateView, Prod.mk.injEq] at late
  simp only [lastView, Prod.mk.injEq] at last
  obtain ⟨master, governor, -, -, -, lines, -⟩ := early
  obtain ⟨-, -, -, master', -, governor', queue', lines', -, -, -, -, -, -, held', floor'⟩ := late
  obtain ⟨master'', governor'', queue'', clips'', -⟩ := last
  refine ⟨?_, ?_, ?_, ?_, ?_, ?_⟩
  · rw [master'', master', master]
  · rw [governor'', governor', governor]
  · rw [queue'', queue']
  · rw [tuneTaken_eq, tuneTolerance_lines, lines', lines]
  · rw [clips'', held']
  · rw [clips'', floor']

theorem queuesTuned_queue (f : TuneFields) (s : State) : (queuesTuned f s).queue.depth = min f.depth 30
    ∧ (queuesTuned f s).queue.highMark = clamp 50 95 f.highMark
    ∧ (queuesTuned f s).queue.limit = prerollLimit s.rate? (min f.depth 30) := by
  have early := queuesTuned_setView f s
  simp only [setView, Prod.mk.injEq] at early
  obtain ⟨-, -, depth, mark, limit, -⟩ := early
  exact ⟨depth, mark, limit⟩

/-- The settings that a TUNE gives take the place of the ones that decide on held entries. -/
def depthTuned (f : TuneFields) (s : State) : State :=
  heldUnder s.queue.depth (withDepth f (tuneGovernor f (tuneMaster f s)))

theorem queuesTuned_held (f : TuneFields) (s : State) :
    (∀ st, (queuesTuned f s).entries st = (depthTuned f s).entries st)
      ∧ (queuesTuned f s).queue.agingLine = (depthTuned f s).queue.agingLine
      ∧ (queuesTuned f s).clips.held = (depthTuned f s).clips.held := by
  refine ⟨fun st => ?_, ?_, ?_⟩
  · rw [queuesTuned, tuneHighMark_entries, tuneDepth_entries]
    rfl
  · rw [queuesTuned, tuneHighMark_line, tuneDepth_queue]
    rfl
  · rw [queuesTuned, tuneHighMark_clips, tuneDepth_held]
    rfl

theorem queuesTuned_rollFloor (f : TuneFields) (s : State) : (queuesTuned f s).clips.rollFloor =
    if min f.depth 30 ≠ 0 ∧ s.queue.depth = 0 ∧ s.intake.geometry ≠ none then
      upTo s.queue.intakeMarks.proxy (upTo s.queue.intakeMarks.master
        (raiseTo s.queue.agingLine s.clips.rollFloor))
    else s.clips.rollFloor := by
  rw [queuesTuned, tuneHighMark_clips, tuneDepth_rollFloor]
  rfl

theorem tuneTaken_clips (f : TuneFields) (s : State) : (tuneTaken f s).clips
    = { (tuneTally f (queuesTuned f s)).clips with blinkTime := handledBlink f.blink } := by
  have last := tuneTaken_lastView f s
  simp only [lastView, Prod.mk.injEq] at last
  obtain ⟨-, -, -, clips, -⟩ := last
  rw [clips, writersTuned, tuneWatermark_clips]
  rfl

theorem tuneTaken_writer (f : TuneFields) (s : State) (st : Stream) :
    gapView ((tuneTaken f s).writer st) = gapView (holdGap (min f.gapTime 1000) (s.writer st)) := by
  have early := queuesTuned_setView f s
  simp only [setView, Prod.mk.injEq] at early
  obtain ⟨-, -, -, -, -, -, -, writers, -⟩ := early
  have tally : ∀ u : State, (tuneTally f u).writers = u.writers := fun u => by
    unfold tuneTally
    dsimp only
    split <;> rfl
  have last := tuneTaken_lastView f s
  simp only [lastView, Prod.mk.injEq] at last
  obtain ⟨-, -, -, -, writers'⟩ := last
  have late : (tuneTaken f s).writer st = (writersTuned f s).writer st := congrArg (fun w : Writers => w.streams.get st) writers'
  have same : (tuneBlink f (tuneTally f (queuesTuned f s))).writer st = s.writer st :=
    congrArg (fun w : Writers => w.streams.get st) ((tally _).trans writers)
  rw [late, writersTuned, tuneWatermark_gapView, tuneGap_writer, same]

end Sys2Proof.Proofs
end

section
/-! SUPPORT. The statement on TUNE. -/

namespace Sys2Proof.Proofs

open Sys2Proof.Machine Sys2Proof.Laws

/-- `s` with a TUNE taken and its directive answered. -/
def tuneAnswered (b : Block) (s : State) : State :=
  answered (doneVerdict (tuneAdjusted b.tuneFields)) (tuneAdjusted b.tuneFields) b (tuneTaken b.tuneFields s)

theorem tune_eq {b : Block} {s : State} (hand : InHand .tune b s) :
    exec .tune s = .next (settle (tuneAnswered b s)) := by
  have walker : (tuneTaken b.tuneFields s).walker = s.walker := congrArg Prod.fst (tuneTaken_untuned b.tuneFields s)
  obtain ⟨block, -, -⟩ := id hand
  show Host.Outcome.next (takeDirective .tune tuneDirective s) = _
  rw [takeDirective_eq _ hand, tuneDirective, complete_eq _ _ (walker ▸ block), tuneAnswered]

theorem tune_follows {b : Block} {s : State} (calm : Calm s) (hand : InHand .tune b s) :
    ∃ t, exec .tune s = .next t ∧ Follows (tuneAnswered b s) t := by
  obtain ⟨master, proxy, -, -⟩ := calm
  have free : ∀ st, (s.writer st).relinquish = none → ((tuneTaken b.tuneFields s).writer st).relinquish = none := by
    intro st none
    have gaps := tuneTaken_writer b.tuneFields s st
    simp only [gapView, Prod.mk.injEq, holdGap] at gaps
    obtain ⟨-, -, relinquish⟩ := gaps
    rw [relinquish]
    split <;> exact none
  exact follows_of_settle (tune_eq hand) (calm_answered _ _ b (free .master master) (free .proxy proxy))

/-! ## The parts of the statement, on the state that a TUNE leaves -/

theorem tuneAnswered_walker (b : Block) (s : State) : (tuneAnswered b s).walker
    = (answered (doneVerdict (tuneAdjusted b.tuneFields)) (tuneAdjusted b.tuneFields) b s).walker := by
  have kept := tuneTaken_untuned b.tuneFields s
  simp only [untuned, unmoved, Prod.mk.injEq] at kept
  obtain ⟨walker, intake, -⟩ := kept
  simp only [tuneAnswered, answered, intake, walker]

theorem answered_unmoved (v : Verdict) (detail : Nat) (b : Block) (s : State) :
    unmoved (answered v detail b s) = unmoved s := rfl

theorem tuneAnswered_unmoved (b : Block) (s : State) : unmoved (tuneAnswered b s) = unmoved s := by
  rw [tuneAnswered, answered_unmoved]
  exact congrArg Prod.snd (tuneTaken_untuned b.tuneFields s)

theorem tune_keeps {b : Block} {s t : State} (follows : Follows (tuneAnswered b s) t) :
    KeepsIntake s t ∧ t.proxy = s.proxy ∧ t.clips.table = s.clips.table ∧ KeepsLog s t ∧ t.shared = s.shared
      ∧ RaisesOnly (.high .master :: .high .proxy :: followUps) s t := by
  have kept := tuneAnswered_unmoved b s
  simp only [unmoved, Prod.mk.injEq] at kept
  obtain ⟨intake, slots, inputs, proxy, log, later, shared, table⟩ := kept
  refine ⟨⟨follows.intake.intake.trans intake, follows.intake.slots.trans slots, follows.intake.inputs.trans inputs⟩,
    follows.coders.proxy.trans proxy, by rw [follows.records.clips, table],
    ⟨follows.log.log.trans log, follows.log.later.trans later⟩, follows.shared.trans shared, ?_⟩
  exact raisesOnly_trans (tuneTaken_raises b.tuneFields s)
    (raisesOnly_trans (raisesOnly_of_pending rfl) (raisesOnly_widen (by decide) follows.raises))

/-- What is held after a TUNE is what its depth leaves. -/
theorem tune_held {b : Block} {s t : State} (follows : Follows (tuneAnswered b s) t) :
    (∀ st, t.entries st = (depthTuned b.tuneFields s).entries st)
      ∧ t.queue.agingLine = (depthTuned b.tuneFields s).queue.agingLine
      ∧ t.clips.held = (depthTuned b.tuneFields s).clips.held := by
  obtain ⟨-, -, queue, -, held, -⟩ := tuneTaken_fields b.tuneFields s
  obtain ⟨entries, line, marks⟩ := queuesTuned_held b.tuneFields s
  have tuned : t.queue = (queuesTuned b.tuneFields s).queue := follows.records.queue.trans queue
  have clips : t.clips = (tuneTaken b.tuneFields s).clips := follows.records.clips
  refine ⟨fun st => ?_, by rw [tuned, line], by rw [clips, held, marks]⟩
  rw [← entries, State.entries, tuned]
  rfl

/-- A depth that ages single frames out takes the oldest ones (R79). -/
theorem depthTuned_ages {f : TuneFields} {s : State} {x : Frame} (some : min f.depth 30 ≠ 0)
    (falls : min f.depth 30 < s.queue.depth)
    (fewer : prerollLimit s.rate? (min f.depth 30) < (s.entries .master).length)
    (short : (s.entries .master).length < 2 ^ 31) (singles : SinglesFrom x (s.entries .master))
    (clips : ∀ e ∈ s.entries .proxy, e.clip ≠ none) :
    let aged := (s.entries .master).length - prerollLimit s.rate? (min f.depth 30)
    (depthTuned f s).entries .master = (s.entries .master).drop aged
      ∧ (depthTuned f s).entries .proxy = s.entries .proxy
      ∧ (depthTuned f s).queue.agingLine = x + BitVec.ofNat 32 aged
      ∧ (depthTuned f s).clips.held = s.clips.held.filter fun m =>
        (List.range aged).all fun i => !isBelow m.frame (x + BitVec.ofNat 32 (i + 1)) := by
  intro aged
  let u := withDepth f (tuneGovernor f (tuneMaster f s))
  have entries : ∀ st, u.entries st = s.entries st := fun _ => rfl
  have limit : u.queue.limit = prerollLimit s.rate? (min f.depth 30) := rfl
  have enforced : depthTuned f s = enforceLimit u := heldUnder_falls (s := u) some falls
  obtain ⟨master, proxy, line, held⟩ := ageToLimit_singles aged (prerollLimit s.rate? (min f.depth 30)) (u := u) singles
    (by rw [entries, limit]; omega) short clips
  have fuel : heldFrames (u.entries .master) = aged + prerollLimit s.rate? (min f.depth 30) := by
    rw [entries, singles.heldFrames]
    omega
  rw [enforced, enforceLimit, fuel]
  exact ⟨master, proxy, line.trans (if_neg (by omega)), held⟩

/-- The tally settings that a TUNE leaves (R115). -/
theorem tuneTaken_tally (f : TuneFields) (s : State) :
    (tuneTaken f s).clips.tallyMode = tallyModeOf f.tally ∧ (tuneTaken f s).clips.blinkTime = handledBlink f.blink
      ∧ (tallyModeOf f.tally = s.clips.tallyMode → (tuneTaken f s).clips.lamp = s.clips.lamp
        ∧ (tuneTaken f s).clips.blinkTimer = s.clips.blinkTimer)
      ∧ (tallyModeOf f.tally ≠ s.clips.tallyMode → (tuneTaken f s).clips.blinkTimer = none
        ∧ (tuneTaken f s).clips.lamp = lampUnder (tallyModeOf f.tally) s) := by
  have early := queuesTuned_setView f s
  simp only [setView, Prod.mk.injEq] at early
  obtain ⟨-, -, -, -, -, -, -, -, mode, lamp, timer, table⟩ := early
  have records : (queuesTuned f s).recording = s.recording := by
    simp only [State.recording, State.clipList, table]
  rw [tuneTaken_clips]
  refine ⟨tuneTally_tallyMode f _, rfl, fun same => ?_, fun changed => ?_⟩
  · rw [← mode] at same
    rw [tuneTally_same same]
    exact ⟨lamp, timer⟩
  · rw [← mode] at changed
    rw [tuneTally_changed changed]
    refine ⟨rfl, ?_⟩
    simp only [lampUnder, records]

theorem last_high (f : TuneFields) (s : State) : (tuneTolerance f (tunePriorities f s)).arbiter.high
    = ⟨isHigh f 0, isHigh f 1, isHigh f 2, isHigh f 3⟩ := rfl

theorem tuneTaken_writers (f : TuneFields) (s : State) :
    writerSettings (tuneTaken f s) = (min f.watermark 47, min f.retry 15, min f.gapTime 1000) := by
  have last := tuneTaken_lastView f s
  simp only [lastView, Prod.mk.injEq] at last
  obtain ⟨-, -, -, -, writers⟩ := last
  have late : writerSettings (tuneTaken f s) = writerSettings (writersTuned f s) := by
    simp only [writerSettings, writers]
  rw [late, writersTuned, tuneWatermark_writerSettings]
  rfl

theorem tuneTaken_gaps (f : TuneFields) (s : State) (st : Stream) :
    ((tuneTaken f s).writer st).gapTimer = (s.writer st).gapTimer
      ∧ ((tuneTaken f s).writer st).gapCount = if f.gapTime = 0 then 0 else (s.writer st).gapCount := by
  have gaps := tuneTaken_writer f s st
  simp only [gapView, Prod.mk.injEq] at gaps
  obtain ⟨timer, count, -⟩ := gaps
  rw [timer, count, holdGap]
  by_cases zero : f.gapTime = 0
  · simp [zero]
  · rw [if_neg (by omega), if_neg zero]
    exact ⟨rfl, rfl⟩

/-! ## The governor's part of the statement -/

theorem governorTune_amounts (r : Rate) (f : GovernorFields) (g : Governor) :
    let new := governorTune (some r) f g
    (allowanceChanged g.inputs new.inputs → new.n = new.inputs.rate * 125 * r.den ∧ new.nominal = new.n / r.num
      ∧ new.burst = new.nominal * effectiveDepth new.inputs ∧ new.skipAt = new.nominal * new.inputs.threshold / 16
      ∧ new.remainder = 0
      ∧ (new.inputs.mode ≠ .off → new.credit = max (-(new.burst : Int)) (min g.credit new.burst)))
    ∧ (¬ allowanceChanged g.inputs new.inputs → new.n = g.n ∧ new.nominal = g.nominal ∧ new.burst = g.burst
      ∧ new.remainder = g.remainder ∧ (new.inputs.mode ≠ .off → new.credit = g.credit)
      ∧ new.skipAt = (if new.inputs.threshold = g.inputs.threshold then g.skipAt
          else g.nominal * new.inputs.threshold / 16)) := by
  intro new
  have ordered := handledInputs_ordered f
  have inputs : new.inputs = handledInputs f := governorTune_inputs (some r) f g
  rw [inputs]
  refine ⟨fun changed => ?_, fun kept => ?_⟩
  · have parts : new = _ := governorTune_changed (r := r) changed
    rw [tuneOff_eq, tuneBounds_eq _ ordered] at parts
    rw [parts]
    exact ⟨rfl, rfl, rfl, rfl, rfl, fun on => if_neg on⟩
  · have parts : new = _ := governorTune_kept (r := r) kept
    rw [tuneOff_eq, tuneBounds_eq _ ordered] at parts
    rw [parts]
    exact ⟨rfl, rfl, rfl, rfl, fun on => if_neg on, rfl⟩

end Sys2Proof.Proofs

namespace Sys2Proof.Proofs.Tune

open Sys2Proof.Machine Sys2Proof.Laws

/-- Settles O50: each part of the statement is a field of the state that `tuneAnswered` names. -/
theorem tuneTaken : Obligations.TuneTaken := by
  refine ⟨fun s b calm hand => ?_, fun s b g hand geometry => ?_⟩
  · intro between cap depth qmax qmin qstart seconds tally blink offsets taken given adjusted mode
    obtain ⟨t, run, follows⟩ := tune_follows calm hand
    have settings : handledMaster b.tuneFields = ⟨between 1 63 (b.u8 32), cap, offsets⟩ := handledMaster_eq _
    have inputs : handledInputs b.tuneFields.governor
        = ⟨[GovernorMode.off, .degrade, .skip].getD (min (b.u8 40) 2) .off, between 500 40000 (b.field 42 2), depth,
          between 4 64 (b.u8 44), qmin, qmax, qstart⟩ := handledInputs_eq _
    have blinks : handledBlink b.tuneFields.blink = blink := handledBlink_eq _
    have modes : tallyModeOf b.tuneFields.tally = mode := tallyModeOf_eq _
    have count : tuneAdjusted b.tuneFields = adjusted := by
      have sum := tuneAdjusted_eq b
      simp only [settings, inputs] at sum
      rw [show handledBlink (b.field 52 2) = blink from blinks] at sum
      exact sum
    obtain ⟨master, governor, queue, lines, -, floor⟩ := tuneTaken_fields b.tuneFields s
    obtain ⟨queueDepth, mark, limit⟩ := queuesTuned_queue b.tuneFields s
    obtain ⟨tunedEntries, tunedLine, tunedHeld⟩ := tune_held follows
    have allowed : ∀ g, s.intake.geometry = some g → prerollLimit s.rate? (min b.tuneFields.depth 30)
        = (seconds * (rateOf g.code).num + (rateOf g.code).den - 1) / (rateOf g.code).den := fun g geometry => by
      rw [State.rate?, geometry]
      rfl
    have tunedQueue : t.queue = (queuesTuned b.tuneFields s).queue := follows.records.queue.trans queue
    have clips : t.clips = (Machine.tuneTaken b.tuneFields s).clips := follows.records.clips
    refine ⟨⟨t, run, ?_⟩, ⟨t, run, ?_, ?_⟩, ⟨t, run, ?_, ?_, ?_, ?_, ?_, ?_⟩, fun g geometry => ⟨fun some within => ?_, ?_⟩,
      ⟨t, run, ?_⟩, ⟨t, run, ?_, ?_, ?_, ?_⟩⟩
    · have walker : t.walker = _ := follows.walker.trans (tuneAnswered_walker b s)
      rw [count] at walker
      exact ⟨walker, tune_keeps follows⟩
    · rw [← settings]
      exact follows.coders.master.trans master
    · have tuned : t.governor = _ := follows.coders.governor.trans governor
      rw [tuned, governorTune_inputs, inputs]
    · rw [tunedQueue, queueDepth]
      rfl
    · rw [tunedQueue, mark, clamp_eq (by decide)]
      rfl
    · intro g geometry
      rw [tunedQueue, limit, allowed g geometry]
    · intro rises st
      rw [tunedEntries, depthTuned, heldUnder_rises (by exact rises)]
      rfl
    · intro zero before
      have discarded : depthTuned b.tuneFields s = discardHeld _ := heldUnder_zero (by exact zero) before
      rw [tunedHeld, tunedLine, discarded]
      refine ⟨discardHeld_held _, discardHeld_line _, fun st => ?_⟩
      rw [tunedEntries, discarded, discardHeld_entries]
      rfl
    · intro upTo
      rw [clips, floor, queuesTuned_rollFloor]
      rfl
    · have same : depthTuned b.tuneFields s = withDepth b.tuneFields _ :=
        heldUnder_within (s := withDepth b.tuneFields (tuneGovernor b.tuneFields (tuneMaster b.tuneFields s))) some (by
          show heldFrames (s.entries .master) ≤ prerollLimit s.rate? (min b.tuneFields.depth 30)
          rw [allowed g geometry]
          exact within)
      refine ⟨t, run, ?_, ?_, fun st => ?_⟩
      · rw [tunedLine, same]
        rfl
      · rw [tunedHeld, same]
        rfl
      · rw [tunedEntries, same]
        rfl
    · intro x some falls fewer short singles others aged
      obtain ⟨masters, proxies, moved, dropped⟩ := depthTuned_ages (f := b.tuneFields) (s := s) (x := x) some falls
        (by rw [allowed g geometry]; exact fewer) short singles others
      rw [allowed g geometry] at masters moved dropped
      exact ⟨t, run, (tunedEntries .master).trans masters, (tunedEntries .proxy).trans proxies, tunedLine.trans moved,
        tunedHeld.trans dropped⟩
    · obtain ⟨tallied, blinked, same, changed⟩ := tuneTaken_tally b.tuneFields s
      rw [modes] at tallied same changed
      rw [clips]
      refine ⟨⟨tallied, blinked.trans blinks⟩, same, fun differs => ?_⟩
      obtain ⟨timer, lamp⟩ := changed differs
      refine ⟨timer, lamp.trans ?_⟩
      cases mode with
      | auto => cases recording : s.recording <;> simp [lampUnder, recording]
      | forceOn => rfl
      | forceOff => rfl
    · have writers := tuneTaken_writers b.tuneFields s
      simp only [writerSettings, Prod.mk.injEq] at writers
      obtain ⟨watermark, retry, gap⟩ := writers
      exact ⟨follows.settings.watermark.trans watermark, follows.settings.retry.trans retry,
        follows.settings.gapTime.trans gap⟩
    · intro st
      obtain ⟨timer, gaps⟩ := tuneTaken_gaps b.tuneFields s st
      exact ⟨(follows.writers st).gapTimer.trans timer, (follows.writers st).gapCount.trans gaps⟩
    · refine follows.settings.high.trans ?_
      show (Machine.tuneTaken b.tuneFields s).arbiter.high = _
      rw [tuneTaken_eq, last_high]
      rfl
    · exact follows.lines.trans lines
  · refine ⟨_, tune_eq hand, ?_⟩
    intro old new r effective changed within
    have tuned : new = governorTune (some r) b.tuneFields.governor old := by
      obtain ⟨-, governor, -⟩ := tuneTaken_fields b.tuneFields s
      rw [State.rate?, geometry] at governor
      exact (settle_followedBy (tuneAnswered b s)).coders.governor.trans governor
    have inputs : new.inputs = handledInputs b.tuneFields.governor := by rw [tuned, governorTune_inputs]
    obtain ⟨changes, stays⟩ := governorTune_amounts r b.tuneFields.governor old
    rw [← tuned] at changes stays
    refine ⟨changes, stays, fun off => ?_, fun on => ?_, ?_⟩
    · rw [inputs] at off
      refine ⟨?_, ?_⟩
      · rw [tuned, governorTune_off off]
      · rw [inputs, tuned, governorTune_step, if_pos off]
    · rw [inputs] at on ⊢
      rw [tuned, governorTune_step, if_neg on]
    · rw [tuned]
      exact governorTune_rest r b.tuneFields.governor old

end Sys2Proof.Proofs.Tune
end

section
/-! SUPPORT. A good frame end whose item the Rate Governor decides in DEGRADE or SKIP (R37, R57 to R59). -/

namespace Sys2Proof.Proofs

open Sys2Proof.Machine Sys2Proof.Laws

/-! ## The decision -/

/-- The governor's books after a REPEAT (R57, R58). -/
def afterRepeat (r : Rate) (g : Governor) : Governor :=
  { g with
    credit := availableCredit r g - 32
    remainder := (g.n + g.remainder) % r.num
    repeats := min (g.repeats + 1) (2 ^ 32 - 1) }

/-- The governor's books after a CODE in DEGRADE or SKIP (R57, R59). -/
def afterCode (r : Rate) (g : Governor) : Governor :=
  { g with
    credit := availableCredit r g
    remainder := (g.n + g.remainder) % r.num
    openPicture := true }

/-- In SKIP with V below T the answer is REPEAT. -/
theorem decides_repeat {r : Rate} {g : Governor} (skip : g.inputs.mode = .skip)
    (below : availableCredit r g < g.skipAt) :
    decision r g = .repeatPicture ∧ afterDecision r g = afterRepeat r g := by
  have repeats : decidesRepeat r g = true := decide_eq_true ⟨skip, below⟩
  constructor
  · simp [decision, skip, repeats]
  · simp [afterDecision, afterRepeat, skip, repeats, countUp, countMax]

/-- In DEGRADE, and in SKIP with V at T or above, the answer is CODE at Q. -/
theorem decides_code {r : Rate} {g : Governor} (on : g.inputs.mode ≠ .off)
    (above : g.inputs.mode = .degrade ∨ (g.skipAt : Int) ≤ availableCredit r g) :
    decision r g = .code g.step ∧ afterDecision r g = afterCode r g := by
  have codes : decidesRepeat r g = false := by
    refine decide_eq_false fun ⟨skip, below⟩ => ?_
    rcases above with degrade | enough
    · exact absurd (degrade.symm.trans skip) (by decide)
    · omega
  cases mode : g.inputs.mode with
  | off => exact absurd mode on
  | degrade => simp [decision, afterDecision, afterCode, mode, codes]
  | skip => simp [decision, afterDecision, afterCode, mode, codes]

/-! ## The item at the front -/

/-- `s` with the Proxy Path's list empty, and the governor's books as `g`. -/
def itemTaken (g : Governor) (s : State) : State :=
  { s with inputs := { s.inputs with proxy := [] }, governor := g }

/-- The Proxy Path has given the slot `x` back and stays IDLE. -/
def slotGiven (i : Nat) (x : Slot) (u : State) : State := { u with slots := u.slots.set i (slotReleased x) }

theorem beside_slotGiven (i : Nat) (x : Slot) : Beside (slotGiven i x) :=
  beside_coders (fun l => l.set i (slotReleased x)) id id id

theorem takeProxyItem_repeats {s : State} (item : SlotItem) (answer : decision s.rate s.governor = .repeatPicture) :
    takeProxyItem item s
      = releaseSlot item.slot (join (repeatEntry item) { s with governor := afterDecision s.rate s.governor }) := by
  simp only [takeProxyItem, answer]

theorem takeProxyItem_codes {s : State} {q : Nat} (item : SlotItem) (answer : decision s.rate s.governor = .code q) :
    takeProxyItem item s = beginProxy item q { s with governor := afterDecision s.rate s.governor } := by
  simp only [takeProxyItem, answer]

/-- The only item on the idle path's list is put to the governor, and the path goes on from there (R35, R37). -/
theorem runCoders_decides {s : State} {item : SlotItem} (coding : s.master.picture.isSome = true)
    (idle : s.proxy.picture = none) (only : s.inputs.proxy = [.slot item]) :
    runCoders s = runProxy 1 (takeProxyItem item { s with inputs := { s.inputs with proxy := [] } }) := by
  rw [runCoders, runMaster_coding _ coding, only, List.length_singleton, runProxy, if_neg (by simp [idle]), only]

/-- An item answered REPEAT becomes a REPEAT entry, and its slot is given back (R38). -/
theorem runCoders_repeats {s : State} {item : SlotItem} {x : Slot} (coding : s.master.picture.isSome = true)
    (idle : s.proxy.picture = none) (only : s.inputs.proxy = [.slot item]) (slot : s.slots[item.slot]? = some x)
    (ready : x.state = .ready) (held : 1 ≤ x.refs) (skip : s.governor.inputs.mode = .skip)
    (below : availableCredit s.rate s.governor < s.governor.skipAt) :
    runCoders s
      = slotGiven item.slot x (join (repeatEntry item) (itemTaken (afterRepeat s.rate s.governor) s)) := by
  obtain ⟨answer, books⟩ := decides_repeat skip below
  have taken : takeProxyItem item { s with inputs := { s.inputs with proxy := [] } }
      = releaseSlot item.slot (join (repeatEntry item) (itemTaken (afterDecision s.rate s.governor) s)) :=
    takeProxyItem_repeats item answer
  have work := join_work (repeatEntry item) (itemTaken (afterRepeat s.rate s.governor) s)
  rw [runCoders_decides coding idle only, taken, books, releaseSlot_eq (by rw [work.slots]; exact slot) ready held]
  exact runProxy_empty _ (congrArg Per.proxy work.inputs)

/-- An item answered CODE begins a proxy picture at Q (R39). -/
theorem runCoders_codes {s : State} {item : SlotItem} (coding : s.master.picture.isSome = true)
    (idle : s.proxy.picture = none) (only : s.inputs.proxy = [.slot item]) (on : s.governor.inputs.mode ≠ .off)
    (above : s.governor.inputs.mode = .degrade ∨ (s.governor.skipAt : Int) ≤ availableCredit s.rate s.governor) :
    runCoders s = beginProxy item s.governor.step (itemTaken (afterCode s.rate s.governor) s) := by
  obtain ⟨answer, books⟩ := decides_code on above
  have taken : takeProxyItem item { s with inputs := { s.inputs with proxy := [] } }
      = beginProxy item s.governor.step (itemTaken (afterDecision s.rate s.governor) s) :=
    takeProxyItem_codes item answer
  rw [runCoders_decides coding idle only, taken, books, runProxy_coding _ rfl]

/-! ## The good frame end -/

/-- `s` with its frame ended good, the slot `x` READY for both coders, before they go on with their lists (R12). -/
def frameListed (x : Slot) (item : SlotItem) (s : State) : State :=
  { s with
    intake := { s.intake with arrival := none }
    slots := s.slots.set item.slot { x with state := .ready, refs := 2 }
    inputs := ⟨s.inputs.master ++ [.slot item], s.inputs.proxy ++ [.slot item]⟩ }

theorem frameEnd_good {s : State} {a : Arrival} {g : Geometry} {i : Nat} {x : Slot}
    (going : s.intake.state ≠ .stopped) (arrival : s.intake.arrival = some a) (geometry : s.intake.geometry = some g)
    (slot : a.slot = some i) (place : s.slots[i]? = some x) (good : a.bad = false) (full : a.lines = g.height) :
    exec .frameEnd s
      = .next (settle (runCoders (frameListed x ⟨i, a.frame, a.label, a.unlocked, a.phase⟩ s))) := by
  rw [frameEnd_slot going arrival geometry slot, if_pos ((good_iff a g).mpr ⟨good, full⟩), endGood_eq,
    modify_eq_set _ place]
  rfl

theorem CoderWork.settings {s t : State} (h : CoderWork s t) : KeepsSettings s t where
  pending := (congrArg State.pending h.besides :)
  mask := (congrArg (fun u => u.notices.mask) h.besides :)
  freeze := (congrArg (fun u => u.notices.freeze) h.besides :)
  address := (congrArg (fun u => u.page.address) h.besides :)
  watermark := (congrArg (fun u => u.writers.watermark) h.besides :)
  gapTime := (congrArg (fun u => u.writers.gapTime) h.besides :)
  retry := (congrArg (fun u => u.writers.retry) h.besides :)
  high := (congrArg (fun u => u.arbiter.high) h.besides :)

/-- An entry's joining and a slot's release leave the lists, the coders and the governor, and set the intake mark. -/
theorem slotGiven_join (i : Nat) (x : Slot) (e : Entry) (s : State) :
    let t := slotGiven i x (join e s)
    t.inputs = s.inputs ∧ t.master = s.master ∧ t.proxy = s.proxy ∧ t.governor = s.governor
      ∧ t.slots = s.slots.set i (slotReleased x)
      ∧ t.queue.intakeMarks = s.queue.intakeMarks.set (some (frameAfter e.frame e.count)) e.stream := by
  have joined := (join_work e s).besides
  exact ⟨(congrArg State.inputs joined :), (congrArg State.master joined :), (congrArg State.proxy joined :),
    (congrArg State.governor joined :), (congrArg (fun u => u.slots.set i (slotReleased x)) joined :),
    (congrArg (fun u => u.queue.intakeMarks) joined :)⟩

/-- Settles O25, by the governor's answer. What the first part is about, the REPEAT entry's joining leaves as it
was; in the second the entry joins for the recording clip. -/
theorem frameEndDecides : Obligations.FrameEndDecides := by
  intro s a g i x going arrival geometry slot place good full coding idle empty on item r v rest
  let listed : State := frameListed x item s
  have command : exec .frameEnd s = .next (settle (runCoders listed)) :=
    frameEnd_good going arrival geometry slot place good full
  have only : listed.inputs.proxy = [.slot item] := by simp [listed, frameListed, empty]
  have ready : listed.slots[i]? = some { x with state := .ready, refs := 2 } :=
    List.getElem?_set_self (List.getElem?_eq_some_iff.mp place).1
  have rate : listed.rate = r := by simp only [State.rate, listed, frameListed, geometry, r]
  have coders := runCoders_work listed
  have follows : ∀ {u : State}, Calm s → runCoders listed = u → ∃ t, exec .frameEnd s = .next t ∧ Follows u t :=
    fun {u} calm goes => goes ▸ follows_of_settle command (coders.calm calm)
  have repeats : s.governor.inputs.mode = .skip → v < s.governor.skipAt → runCoders listed
      = slotGiven i { x with state := .ready, refs := 2 }
        (join (repeatEntry item) (itemTaken (afterRepeat r s.governor) listed)) := fun skip below => by
    rw [runCoders_repeats (s := listed) (item := item) coding idle only ready rfl one_le_two skip
      (by rw [rate]; exact below), rate]
    rfl
  refine ⟨fun skip below => ?_, fun c calm skip below takes room => follows calm ?_, fun calm above => follows calm ?_⟩
  · have follow := settle_followedBy (runCoders listed)
    have settings : KeepsSettings s listed := ⟨rfl, rfl, rfl, rfl, rfl, rfl, rfl, rfl⟩
    obtain ⟨inputs, master, proxy, governor, slots, marks⟩ := slotGiven_join i { x with state := .ready, refs := 2 }
      (repeatEntry item) (itemTaken (afterRepeat r s.governor) listed)
    rw [← repeats skip below] at inputs master proxy governor slots marks
    exact ⟨settle (runCoders listed), command, follow.intake.intake.trans coders.intake,
      follow.intake.inputs.trans inputs, follow.coders.master.trans master, follow.coders.proxy.trans proxy,
      follow.coders.governor.trans governor, follow.intake.slots.trans (slots.trans (List.set_set _)),
      (congrArg QueueManager.intakeMarks follow.records.queue).trans marks,
      follow.lines.trans (congrArg State.lines coders.besides :),
      keepsSettings_trans settings (keepsSettings_trans coders.settings follow.settings),
      follow.shared.trans (congrArg State.shared coders.besides :)⟩
  · rw [repeats skip below, join_takes (s := itemTaken _ listed) (c := c) (e := repeatEntry item) le_rfl
      (takesFrame_first takes) room, ← withJoined_beside (beside_slotGiven _ _)]
    dsimp only [slotGiven, markIntake, itemTaken, frameListed, listed]
    rw [List.set_set]
    rfl
  · rw [runCoders_codes (s := listed) (item := item) coding idle only on (by rw [rate]; exact above), rate, beginProxy,
      newProxyPicture_eq (s := itemTaken _ listed) (item := item) _ geometry ready, lumaSource_eq]
    rfl

end Sys2Proof.Proofs
end

section
/-! SUPPORT. What each operation of the Rate Governor keeps of its books: the bounds of C, Q and r, and the derived
quantities (R51 to R70). -/

namespace Sys2Proof.Proofs

open Sys2Proof.Machine Sys2Proof.Laws

/-! ## The books alone -/

theorem governorSound_of_eq {s t : State} (sound : GovernorSound s)
    (geometry : t.intake.geometry = s.intake.geometry) (governor : t.governor = s.governor) : GovernorSound t := by
  refine ⟨?_, ?_, ?_, ?_, ?_, ?_, ?_, ?_, ?_⟩
  all_goals rw [governor]
  · exact sound.rate
  · exact sound.depth
  · exact sound.threshold
  · exact sound.steps
  · rw [geometry]; exact sound.derived
  · rw [geometry]; exact sound.absent
  · exact sound.credit
  · exact sound.step
  · exact sound.off

/-- A rate's num is positive, and at 500 Kbit/s or more a picture's allowance is above the 32 bytes of a REPEAT
(R51, R53, R58). -/
theorem rateOf_bounds (c : Fin 12) : 0 < (rateOf c).num ∧ 32 * (rateOf c).num ≤ 500 * 125 * (rateOf c).den := by
  revert c
  decide

/-- C, r, Q and the counts may take new values within their bounds; the inputs and derived quantities stay. -/
theorem rebooked_sound {s : State} (sound : GovernorSound s) {credit : Int} {remainder step : Nat}
    (below : ∀ g, s.intake.geometry = some g → remainder < (rateOf g.code).num)
    (absent : s.intake.geometry = none → remainder = 0)
    (owed : -(s.governor.burst : Int) ≤ credit) (full : credit ≤ s.governor.burst)
    (bounds : s.governor.inputs.qmin ≤ step ∧ step ≤ s.governor.inputs.qmax)
    (off : s.governor.inputs.mode = .off → credit = s.governor.burst ∧ step = s.governor.inputs.qstart)
    (isOpen : Bool) (overruns repeats : Nat) :
    GovernorSound { s with governor := { s.governor with
      credit := credit, remainder := remainder, step := step
      openPicture := isOpen, overruns := overruns, repeats := repeats } } where
  rate := sound.rate
  depth := sound.depth
  threshold := sound.threshold
  steps := sound.steps
  derived g some := by
    obtain ⟨n, nominal, burst, skipAt, -⟩ := sound.derived g some
    exact ⟨n, nominal, burst, skipAt, below g some⟩
  absent none := by
    obtain ⟨n, nominal, burst, skipAt, -, -⟩ := sound.absent none
    exact ⟨n, nominal, burst, skipAt, by dsimp only; omega, absent none⟩
  credit := ⟨owed, full⟩
  step := bounds
  off := off

theorem remainder_sound {s : State} (sound : GovernorSound s) :
    (∀ g, s.intake.geometry = some g → s.governor.remainder < (rateOf g.code).num)
      ∧ (s.intake.geometry = none → s.governor.remainder = 0) := by
  refine ⟨fun g some => ?_, fun none => ?_⟩
  · obtain ⟨-, -, -, -, below⟩ := sound.derived g some
    exact below
  · obtain ⟨-, -, -, -, -, zero⟩ := sound.absent none
    exact zero

/-- The Qstart in force is a step within its bounds (R51). -/
theorem qstart_within {s : State} (sound : GovernorSound s) :
    s.governor.inputs.qmin ≤ s.governor.inputs.qstart ∧ s.governor.inputs.qstart ≤ s.governor.inputs.qmax := by
  obtain ⟨-, low, high, -⟩ := sound.steps
  exact ⟨low, high⟩

theorem startCredit_sound {s : State} (sound : GovernorSound s) :
    GovernorSound { s with governor := startCredit s.governor } :=
  rebooked_sound sound (fun g _ => (rateOf_bounds g.code).1) (fun _ => rfl) (by omega) le_rfl (qstart_within sound)
    (fun _ => ⟨rfl, rfl⟩) _ _ _

/-- Derived anew at the rate of a geometry, with a full burst of credit, the books are sound (R53, R69). -/
theorem startDerived_sound {s t : State} {h : Governor} {g : Geometry} (sound : GovernorSound s)
    (inputs : h.inputs = s.governor.inputs) (geometry : t.intake.geometry = some g)
    (governor : t.governor = startCredit (derive (rateOf g.code) h)) : GovernorSound t := by
  refine ⟨?_, ?_, ?_, ?_, fun g' some => ?_, fun none => ?_, ?_, ?_, ?_⟩
  case refine_6 => cases geometry.symm.trans none
  all_goals rw [governor]
  · exact inputs ▸ sound.rate
  · exact inputs ▸ sound.depth
  · exact inputs ▸ sound.threshold
  · exact inputs ▸ sound.steps
  · cases geometry.symm.trans some
    exact ⟨rfl, rfl, rfl, rfl, (rateOf_bounds g.code).1⟩
  · exact ⟨by dsimp only [startCredit]; omega, le_rfl⟩
  · have start := qstart_within sound
    rw [← inputs] at start
    exact start
  · exact fun _ => ⟨rfl, rfl⟩

/-! ## The decision -/

theorem nominal_ge {s : State} {g : Geometry} (sound : GovernorSound s)
    (geometry : s.intake.geometry = some g) : 32 ≤ s.governor.nominal := by
  obtain ⟨n, nominal, -⟩ := sound.derived g geometry
  obtain ⟨positive, enough⟩ := rateOf_bounds g.code
  obtain ⟨least, -⟩ := sound.rate
  rw [nominal, n, Nat.le_div_iff_mul_le positive]
  refine enough.trans (Nat.mul_le_mul_right _ ?_)
  omega

/-- A rate that is in force, or the row that stands in for it, divides by a positive num. -/
theorem rate_num_pos (s : State) : 0 < s.rate.num := by
  unfold State.rate
  split <;> exact (rateOf_bounds _).1

theorem rate_of_geometry {s : State} {g : Geometry} (geometry : s.intake.geometry = some g) :
    s.rate = rateOf g.code := by simp [State.rate, geometry]

/-- V is within −B to B (R57). -/
theorem availableCredit_bounds {s : State} (sound : GovernorSound s) :
    -(s.governor.burst : Int) ≤ availableCredit s.rate s.governor
      ∧ availableCredit s.rate s.governor ≤ s.governor.burst := by
  obtain ⟨owed, -⟩ := sound.credit
  unfold availableCredit
  omega

/-- The 32 bytes of a REPEAT never bring C below −B (R58): an allowance is larger, and so is B. -/
theorem availableCredit_repeat {s : State} (sound : GovernorSound s)
    (repeats : decidesRepeat s.rate s.governor = true) :
    -(s.governor.burst : Int) ≤ availableCredit s.rate s.governor - 32 := by
  obtain ⟨-, below⟩ := of_decide_eq_true repeats
  obtain ⟨owed, -⟩ := sound.credit
  cases geometry : s.intake.geometry with
  | none =>
    obtain ⟨-, -, burst, skipAt, credit, -⟩ := sound.absent geometry
    unfold availableCredit at below
    omega
  | some g =>
    have large := nominal_ge sound geometry
    obtain ⟨-, nominal, burst, -, -⟩ := sound.derived g geometry
    have allowed : s.governor.nominal ≤ allowance s.rate s.governor := by
      rw [nominal, allowance, rate_of_geometry geometry]
      exact Nat.div_le_div_right (Nat.le_add_right _ _)
    have deep : s.governor.nominal ≤ s.governor.burst := by
      rw [burst]
      refine Nat.le_mul_of_pos_right _ ?_
      have depth := sound.depth
      simp only [List.mem_cons, List.not_mem_nil, or_false] at depth
      split <;> omega
    unfold availableCredit
    omega

theorem afterDecision_sound {s : State} (sound : GovernorSound s) :
    GovernorSound { s with governor := afterDecision s.rate s.governor } := by
  obtain ⟨owed, full⟩ := availableCredit_bounds sound
  have below : ∀ g, s.intake.geometry = some g →
      (s.governor.n + s.governor.remainder) % s.rate.num < (rateOf g.code).num := fun g geometry => by
    rw [← rate_of_geometry geometry]
    exact Nat.mod_lt _ (rate_num_pos s)
  have absent : s.intake.geometry = none → (s.governor.n + s.governor.remainder) % s.rate.num = 0 := fun none => by
    obtain ⟨n, -, -, -, -, remainder⟩ := sound.absent none
    simp [n, remainder]
  unfold afterDecision
  split
  · obtain ⟨below, absent⟩ := remainder_sound sound
    obtain ⟨owed, full⟩ := sound.credit
    exact rebooked_sound sound below absent owed full sound.step sound.off _ _ _
  all_goals
    next on =>
    split
    · next repeats =>
      exact rebooked_sound sound below absent (availableCredit_repeat sound repeats) (by omega) sound.step
        (fun off => by cases off.symm.trans on) _ _ _
    · exact rebooked_sound sound below absent owed full sound.step (fun off => by cases off.symm.trans on) _ _ _

/-! ## The completion of a picture -/

theorem updatedStep_within {g : Governor} (bounds : g.inputs.qmin ≤ g.step ∧ g.step ≤ g.inputs.qmax) :
    g.inputs.qmin ≤ updatedStep g ∧ updatedStep g ≤ g.inputs.qmax := by
  obtain ⟨low, high⟩ := bounds
  unfold updatedStep
  split
  · exact ⟨le_min (low.trans (Nat.le_add_right_of_le (Nat.le_add_right _ _))) (low.trans high), min_le_right _ _⟩
  · split <;> omega

theorem afterCompletion_sound {s : State} (sound : GovernorSound s) (size : Nat) :
    GovernorSound { s with governor := afterCompletion size s.governor } := by
  obtain ⟨below, absent⟩ := remainder_sound sound
  obtain ⟨owed, full⟩ := sound.credit
  by_cases off : s.governor.inputs.mode = .off
  · rw [afterCompletion_off size off]
    exact rebooked_sound sound below absent owed full sound.step sound.off _ _ _
  · have charged := charge_eq size { s.governor with openPicture := false }
    rw [afterCompletion_on size off, charged]
    dsimp only
    exact rebooked_sound sound below absent (le_max_right _ _) (by omega)
      (updatedStep_within (g := { s.governor with openPicture := false, credit := _, overruns := _ }) sound.step)
      (fun on => absurd on off) _ _ _

/-! ## Engine reset and TUNE -/

theorem governorEngineReset_sound {s t : State} (sound : GovernorSound s)
    (geometry : t.intake.geometry = s.intake.geometry)
    (governor : t.governor = governorEngineReset s.rate? s.governor) : GovernorSound t := by
  cases present : s.intake.geometry with
  | none =>
    rw [State.rate?, present] at governor
    refine governorSound_of_eq (s := { s with governor := governorEngineReset none s.governor }) ?_ geometry governor
    exact ⟨sound.rate, sound.depth, sound.threshold, sound.steps, fun g some => (nomatch present.symm.trans some),
      fun _ => ⟨rfl, rfl, rfl, rfl, rfl, rfl⟩, ⟨le_rfl, le_rfl⟩,
      qstart_within (s := s) sound, fun _ => ⟨rfl, rfl⟩⟩
  | some g =>
    rw [State.rate?, present] at governor
    exact startDerived_sound (h := { s.governor with openPicture := false, overruns := 0, repeats := 0 }) sound rfl
      (geometry.trans present) governor

theorem handledInputs_ranges (f : GovernorFields) :
    let i := handledInputs f
    (500 ≤ i.rate ∧ i.rate ≤ 40000) ∧ i.depth ∈ [4, 8, 16, 32] ∧ (4 ≤ i.threshold ∧ i.threshold ≤ 64)
      ∧ 1 ≤ i.qmin ∧ i.qmin ≤ i.qstart ∧ i.qstart ≤ i.qmax ∧ i.qmax ≤ 63 := by
  rw [handledInputs_eq]
  refine ⟨by dsimp only; omega, ?_, by dsimp only; omega, by dsimp only; omega⟩
  dsimp only
  split_ifs <;> decide

/-- The derived quantities are as R53 computes them, and r is below num: what `GovernorSound` says at a rate. -/
def DerivedAt (r : Rate) (g : Governor) : Prop :=
  g.n = g.inputs.rate * 125 * r.den ∧ g.nominal = g.n / r.num ∧ g.burst = g.nominal * effectiveDepth g.inputs
    ∧ g.skipAt = g.nominal * g.inputs.threshold / 16 ∧ g.remainder < r.num

/-- A TUNE computes anew what its changes of R, k, mode and t touch (R64, R65). -/
theorem governorTune_derived {r : Rate} {g : Governor} (f : GovernorFields) (positive : 0 < r.num)
    (derived : DerivedAt r g) : DerivedAt r (governorTune (some r) f g) := by
  obtain ⟨n, nominal, burst, skipAt, below⟩ := derived
  obtain ⟨changes, keeps⟩ := governorTune_amounts r f g
  by_cases changed : allowanceChanged g.inputs (governorTune (some r) f g).inputs
  · obtain ⟨n', nominal', burst', skipAt', zero, -⟩ := changes changed
    exact ⟨n', nominal', burst', skipAt', zero ▸ positive⟩
  · obtain ⟨n', nominal', burst', remainder, -, skipAt'⟩ := keeps changed
    obtain ⟨rate, depth⟩ := not_or.mp changed
    refine ⟨?_, ?_, ?_, ?_, ?_⟩
    · rw [n', n, not_ne_iff.mp rate]
    · rw [nominal', n', nominal]
    · rw [burst', nominal', burst, not_ne_iff.mp depth]
    · rw [skipAt', nominal']
      split
      · next threshold => rw [threshold, skipAt]
      · rfl
    · rw [remainder]; exact below

/-- A TUNE brings C within the new B (R64), and to B in OFF (R67). -/
theorem governorTune_credit {r : Rate} {g : Governor} (f : GovernorFields)
    (bounds : -(g.burst : Int) ≤ g.credit ∧ g.credit ≤ g.burst) :
    -((governorTune (some r) f g).burst : Int) ≤ (governorTune (some r) f g).credit
      ∧ (governorTune (some r) f g).credit ≤ (governorTune (some r) f g).burst := by
  obtain ⟨changes, keeps⟩ := governorTune_amounts r f g
  by_cases off : (handledInputs f).mode = .off
  · rw [governorTune_off off]
    omega
  · rw [governorTune_inputs] at changes keeps
    by_cases changed : allowanceChanged g.inputs (handledInputs f)
    · obtain ⟨-, -, -, -, -, credit⟩ := changes changed
      rw [credit off]
      omega
    · obtain ⟨-, -, burst, -, credit, -⟩ := keeps changed
      rw [credit off, burst]
      exact bounds

theorem governorTune_step_within (r : Rate) (f : GovernorFields) {g : Governor}
    (bounds : g.inputs.qmin ≤ g.step ∧ g.step ≤ g.inputs.qmax) :
    (handledInputs f).qmin ≤ (governorTune (some r) f g).step
      ∧ (governorTune (some r) f g).step ≤ (handledInputs f).qmax := by
  obtain ⟨-, -, -, -, low, high, -⟩ := handledInputs_ranges f
  rw [governorTune_step]
  split
  · exact ⟨low, high⟩
  · split <;> omega

theorem governorTune_sound {s t : State} (sound : GovernorSound s) (f : GovernorFields)
    (geometry : t.intake.geometry = s.intake.geometry) (governor : t.governor = governorTune s.rate? f s.governor) :
    GovernorSound t := by
  obtain ⟨rate, depth, threshold, one, low, high, top⟩ := handledInputs_ranges f
  refine governorSound_of_eq (s := { s with governor := governorTune s.rate? f s.governor }) ?_ geometry governor
  cases present : s.intake.geometry with
  | none =>
    obtain ⟨n, nominal, burst, skipAt, credit, remainder⟩ := sound.absent present
    rw [State.rate?, present]
    exact ⟨rate, depth, threshold, ⟨one, low, high, top⟩, fun g some => (nomatch present.symm.trans some),
      fun _ => ⟨n, nominal, burst, skipAt, credit, remainder⟩, sound.credit, ⟨low, high⟩,
      fun _ => ⟨by simp [governorTune, credit, burst], rfl⟩⟩
  | some g =>
    rw [State.rate?, present, Option.map_some]
    have inputs := governorTune_inputs (some (rateOf g.code)) f s.governor
    have derived := governorTune_derived f (rateOf_bounds g.code).1 (sound.derived g present)
    have step := governorTune_step_within (rateOf g.code) f sound.step
    have credit := governorTune_credit (r := rateOf g.code) f sound.credit
    have atStart : (handledInputs f).mode = .off →
        (governorTune (some (rateOf g.code)) f s.governor).credit
            = (governorTune (some (rateOf g.code)) f s.governor).burst
          ∧ (governorTune (some (rateOf g.code)) f s.governor).step = (handledInputs f).qstart := fun off =>
      ⟨governorTune_off off, by rw [governorTune_step, if_pos off]⟩
    rw [← inputs] at rate depth threshold one low high top step atStart
    refine ⟨rate, depth, threshold, ⟨one, low, high, top⟩, fun g' some => ?_, fun none => ?_, credit, step, atStart⟩
    · cases present.symm.trans some
      exact derived
    · cases present.symm.trans none

end Sys2Proof.Proofs
end

section
/-! SUPPORT. The operations that leave the governor as it is: settling, the burst answers, the walker, Clip Control and
the event lines. -/

namespace Sys2Proof.Proofs

open Sys2Proof.Machine Sys2Proof.Laws

@[simp] theorem ite_governor (p : Prop) [Decidable p] (s t : State) :
    (if p then s else t).governor = if p then s.governor else t.governor := apply_ite State.governor p s t

theorem queueWork_governor {s t : State} (h : QueueWork s t) : t.governor = s.governor :=
  (congrArg State.governor h.besides :)

section
variable (s : State)

@[simp] theorem settle_governor : (settle s).governor = s.governor := (settle_followedBy s).coders.governor

@[simp] theorem complete_governor (v : Verdict) (detail : Nat) : (complete v detail s).governor = s.governor :=
  (complete_followedBy v detail s).coders.governor

@[simp] theorem goOrAbandon_governor (f : Flight) : (goOrAbandon f s).governor = s.governor :=
  (goOrAbandon_followedBy f s).coders.governor

@[simp] theorem goInFlight_governor (f : Flight) : (goInFlight f s).governor = s.governor := rfl

@[simp] theorem requestBody_governor (b : Block) : (requestBody b s).governor = s.governor := rfl

@[simp] theorem requestSource_governor (b : Block) (got : List Byte) : (requestSource b got s).governor = s.governor := rfl

@[simp] theorem requestGrantWrite_governor (b : Block) (n : Nat) (left : List (Nat × Reason)) :
    (requestGrantWrite b n left s).governor = s.governor := (requestGrantWrite_followedBy b n left s).coders.governor

@[simp] theorem putSegments_governor (st : Stream) (l : List Segment) : (putSegments st l s).governor = s.governor :=
  (putSegments_followedBy st l s).coders.governor

@[simp] theorem closeSegment_governor (st : Stream) (r : Reason) : (closeSegment st r s).governor = s.governor :=
  (closeSegment_followedBy st r s).coders.governor

@[simp] theorem closeUndone_governor (st : Stream) (r : Reason) (n : Nat) : (closeUndone st r n s).governor = s.governor :=
  (closeUndone_followedBy st r n s).coders.governor

@[simp] theorem raiseIf_governor (b : Bool) (n : Notice) : (raiseIf b n s).governor = s.governor :=
  queueWork_governor (raiseIf_work b n s)

@[simp] theorem reportFault_governor (f : FaultReport) : (reportFault f s).governor = s.governor :=
  queueWork_governor (reportFault_work f s)

@[simp] theorem removeFront_governor (st : Stream) (e : Entry) : (removeFront st e s).governor = s.governor :=
  queueWork_governor (removeFront_work st e s)

/-! ## Bursts -/

@[simp] theorem endBurst_governor (r : Requester) (b : Burst) : (endBurst r b s).governor = s.governor := rfl

@[simp] theorem withdrawBurst_governor (r : Requester) : (withdrawBurst r s).governor = s.governor := by
  simp [withdrawBurst]

/-- An answer OK leaves the governor as it is if its owner does. -/
theorem answerOk_governor {act : Burst → State → State} (h : ∀ b u, (act b u).governor = u.governor) (r : Requester)
    (kind : BurstKind) : (answerOk r kind act s).governor = s.governor := by
  unfold answerOk
  split
  · rfl
  · simp [h]

theorem resultSlotWritten_governor : (resultSlotWritten s).governor = s.governor := by
  unfold resultSlotWritten
  split <;> rfl

theorem segmentReturned_governor : (segmentReturned s).governor = s.governor := by
  unfold segmentReturned
  split
  · rfl
  · simp [countRelinquished]

theorem writerAdvanced_governor (st : Stream) (n : Nat) : (writerAdvanced st n s).governor = s.governor := by
  unfold writerAdvanced
  dsimp only
  split
  · split <;> simp
  · rfl

theorem writerBurstDone_governor : (writerBurstDone s).governor = s.governor := by
  unfold writerBurstDone
  split
  · rfl
  · exact answerOk_governor s (fun b u => writerAdvanced_governor u _ _) _ _

theorem gapExpired_governor (st : Stream) : (gapExpired st s).governor = s.governor := by
  simp [gapExpired]

@[simp] theorem takeBlock_governor (a : Nat) : (takeBlock a s).governor = s.governor := rfl

@[simp] theorem startChain_governor (a : Nat) : (startChain a s).governor = s.governor := rfl

@[simp] theorem endChain_governor : (endChain s).governor = s.governor := by
  unfold endChain
  dsimp only
  split <;> simp

@[simp] theorem endChainFault_governor (kind : FaultKind) (a : Nat) (x : Frame) :
    (endChainFault kind a x s).governor = s.governor := by simp [endChainFault]

theorem burstFailed_governor (r : Requester) (kind : FaultKind) (b : Burst) :
    (burstFailed r kind b s).governor = s.governor := by
  have result : (resultFailed b s).governor = s.governor := by
    unfold resultFailed
    split
    · rfl
    · simp [segmentReturned_governor]
  cases r with
  | walker => simp [burstFailed, walkerFailed]
  | page => simp [burstFailed, pageFailed, rewriteFailed, result]
  | master => simp [burstFailed, writerFailed]
  | proxy => simp [burstFailed, writerFailed]

theorem answerRetry_governor : (answerRetry s).governor = s.governor := by
  have waits : ∀ r u, (waitAgain r u).governor = u.governor := fun _ _ => rfl
  unfold answerRetry
  split
  · rfl
  · simp [retried, waits, burstFailed_governor]

theorem answerError_governor : (answerError s).governor = s.governor := by
  unfold answerError
  split
  · rfl
  · simp [errored, burstFailed_governor]

/-! ## The walker -/

@[simp] theorem refuseEntry_governor (r : EntryRefusal) : (refuseEntry r s).governor = s.governor := rfl

theorem takeEntry_governor (v : BitVec 32) : (takeEntry v s).governor = s.governor := by
  unfold takeEntry
  split_ifs
  · rfl
  · rfl
  · split <;> simp [holdEntry]

@[simp] theorem handOver_governor (kind : DirectiveKind) : (handOver kind s).governor = s.governor := by
  cases kind <;> simp [handOver]

theorem headerArrived_governor (bytes : List Byte) : (headerArrived bytes s).governor = s.governor := by
  unfold headerArrived headerChecked
  split
  · rfl
  · dsimp only
    split <;> simp

theorem bodyArrived_governor (n : Nat) (bytes : List Byte) : (bodyArrived n bytes s).governor = s.governor := by
  unfold bodyArrived
  split
  · rfl
  · dsimp only
    split_ifs
    · rfl
    · split <;> simp

theorem sourceArrived_governor (n : Nat) (bytes : List Byte) : (sourceArrived n bytes s).governor = s.governor := by
  unfold sourceArrived
  split
  · rfl
  · split
    · simp [loadActivity, loadCurve]
    · rfl

theorem refusedSlotWritten_governor : (refusedSlotWritten s).governor = s.governor := by
  unfold refusedSlotWritten
  split
  · rfl
  · split <;> simp

theorem returnedCountWritten_governor : (returnedCountWritten s).governor = s.governor := by
  unfold returnedCountWritten
  split
  · rfl
  · split <;> simp

@[simp] theorem actOn_governor (c : Continuation) : (actOn c s).governor = s.governor := by
  cases c <;> simp [actOn, followNext]

theorem outcomeWritten_governor : (outcomeWritten s).governor = s.governor := by
  unfold outcomeWritten
  split
  · rfl
  · split
    · simp [blockComplete, haltAt]
    · rfl

theorem takeHalt_governor : (takeHalt s).governor = s.governor := by
  unfold takeHalt
  split <;> rfl

theorem takeResume_governor : (takeResume s).governor = s.governor := by
  unfold takeResume
  split <;> simp

theorem takeStop_governor : (takeStop s).governor = s.governor := by
  have withdrawn : ∀ f u, (withdrawFlight f u).governor = u.governor := fun f u => by
    cases f <;> simp [withdrawFlight, withdrawRelinquish]
  unfold takeStop
  split
  · split <;> simp [withdrawn]
  all_goals simp

/-! ## Directives -/

theorem takeDirective_governor {act : Block → State → State} (h : ∀ b u, (act b u).governor = u.governor)
    (kind : DirectiveKind) : (takeDirective kind act s).governor = s.governor := by
  unfold takeDirective
  split
  · rfl
  · simp [h]

theorem linesDirective_governor (b : Block) : (linesDirective b s).governor = s.governor := by
  unfold linesDirective
  split <;> simp [linesTaken]

theorem loadDirective_governor (b : Block) : (loadDirective b s).governor = s.governor := by
  unfold loadDirective
  split_ifs
  · split <;> simp
  · simp

theorem grantDirective_governor (b : Block) : (grantDirective b s).governor = s.governor := by
  unfold grantDirective
  split <;> simp [grantTaken]

theorem relinquishDirective_governor (b : Block) : (relinquishDirective b s).governor = s.governor := by
  have begun : ∀ st close u, (beginRelinquish st close u).governor = u.governor := fun st close u => by
    unfold beginRelinquish
    dsimp only
    split <;> simp [closeAtOnce]
  unfold relinquishDirective
  split <;> simp [begun]

theorem stopDirective_governor (b : Block) : (stopDirective b s).governor = s.governor := by
  unfold stopDirective
  split <;> simp [stopIntake]

theorem timecodeDirective_governor (b : Block) : (timecodeDirective b s).governor = s.governor := by
  unfold timecodeDirective
  split <;> simp

theorem waitDirective_governor (b : Block) : (waitDirective b s).governor = s.governor := by
  simp [waitDirective]

/-! ## Clip Control -/

@[simp] theorem openClip_governor (k : Nat) (first : Frame) : (openClip k first s).governor = s.governor :=
  queueWork_governor (s := placeClip k (newClip first s) s)
    ((((commitFrom_work _ _ _).trans (moveMarks_work _ _ _)).trans (clipEvent_work _ _ _)).trans (lampOn_work _))

@[simp] theorem cutClip_governor (c : Clip) : (cutClip c s).governor = s.governor := queueWork_governor (cutClip_work c s)

@[simp] theorem rollLine_governor : (rollLine s).governor = s.governor := by
  unfold rollLine
  split <;> simp

@[simp] theorem cutLine_governor : (cutLine s).governor = s.governor := by
  unfold cutLine
  split <;> simp

theorem takeRoll_governor (source : Source) : (takeRoll source s).governor = s.governor := by
  have roll : (rollDirective s).governor = s.governor := by
    unfold rollDirective
    split <;> simp
  cases source <;> simp [takeRoll, roll]

theorem takeCut_governor (source : Source) : (takeCut source s).governor = s.governor := by
  have cut : (cutDirective s).governor = s.governor := by
    unfold cutDirective
    split <;> simp
  cases source <;> simp [takeCut, cut]

theorem takeToggle_governor (n : LineNo) : (takeToggle n s).governor = s.governor := by
  simp [takeToggle]

@[simp] theorem takeMark_governor (kind : MarkKind) (source : Source) : (takeMark kind source s).governor = s.governor := by
  have listed : ∀ u, (markListed u).governor = u.governor := fun u => by
    unfold markListed startBlink
    split <;> rfl
  unfold takeMark
  split <;> simp [listed, holdMark]

theorem takeMarkFrom_governor (source : Source) : (takeMarkFrom source s).governor = s.governor := by
  unfold takeMarkFrom
  split
  · split
    · rfl
    · unfold markDirective
      split <;> simp
  · split <;> simp

theorem blinkExpired_governor : (blinkExpired s).governor = s.governor := by
  unfold blinkExpired
  split <;> rfl

/-! ## Event lines -/

@[simp] theorem judge_governor (r : CaptureResult) : (judge r s).governor = s.governor := by simp [judge]

@[simp] theorem capture_governor (phase : Nat) : (capture phase s).governor = s.governor := by simp [capture]

@[simp] theorem syncEdge_governor (time : Nat) : (syncEdge time s).governor = s.governor := by
  unfold syncEdge
  split <;> simp

@[simp] theorem changeLine_governor (n : LineNo) (time : Nat) (before after : Line) :
    (changeLine n time before after s).governor = s.governor := by
  have handed : ∀ u, (handEdge n after after.filtered time u).governor = u.governor := fun u => by
    unfold handEdge
    split <;> simp [handRequest]
  simp [changeLine, handed]

theorem rawChange_governor (n : LineNo) (drive : Option Level) (time : Nat) :
    (rawChange n drive time s).governor = s.governor := by
  unfold rawChange
  split <;> simp

theorem filterExpired_governor (n : LineNo) (time : Nat) : (filterExpired n time s).governor = s.governor := by
  unfold filterExpired
  split <;> simp

/-! ## Registers, the tables, lines of pixels and draining -/

theorem takeFreeze_governor (level : Bool) : (takeFreeze level s).governor = s.governor := by
  simp [takeFreeze, freezeSet, freezeReleased]

theorem writeNotice_governor (v : BitVec 32) : (writeNotice v s).governor = s.governor := by
  simp [writeNotice]

@[simp] theorem completeReset_governor : (completeReset s).governor = s.governor := rfl

theorem engineResetComplete_governor : (engineResetComplete s).governor = s.governor := by
  simp [engineResetComplete]

@[simp] theorem resumeLoad_governor (n : Nat) : (resumeLoad n s).governor = s.governor := by
  unfold resumeLoad
  split <;> simp

theorem activityReady_governor : (activityReady s).governor = s.governor := by
  unfold activityReady
  split <;> simp

theorem curveReady_governor : (curveReady s).governor = s.governor := by
  unfold curveReady
  split <;> simp

theorem takeLine_governor (pixels : List Pixel) (check : BitVec 16) : (takeLine pixels check s).governor = s.governor := by
  unfold takeLine
  split
  · rfl
  · rfl
  · split <;> rfl

theorem intakeDrained_governor : (intakeDrained s).governor = s.governor := by
  simp [intakeDrained]

end

end Sys2Proof.Proofs
end

section
/-! SUPPORT. The commands that reach the Rate Governor: pictures, SETUP, TUNE, START_INTAKE and the resets. So every
step keeps its books (R51 to R70). -/

namespace Sys2Proof.Proofs

open Sys2Proof.Machine Sys2Proof.Laws

theorem governorSound_of_keeps {o : Owner} {s t : State} (sound : GovernorSound s) (h : Keeps o s t) (other : o ≠ .setup)
    (governor : t.governor = s.governor) : GovernorSound t := by
  have setup := h.setup other
  simp only [setupPart, Prod.mk.injEq] at setup
  obtain ⟨geometry, -, -⟩ := setup
  exact governorSound_of_eq sound geometry governor

theorem governorSound_followed {s t : State} (sound : GovernorSound s) (h : FollowedBy s t) : GovernorSound t :=
  governorSound_of_keeps (o := .nobody) sound (followedBy_keeps h) nofun h.coders.governor

theorem governorSound_worked {s t : State} (sound : GovernorSound s) (h : QueueWork s t) : GovernorSound t :=
  governorSound_of_keeps (o := .nobody) sound (queueWork_keeps h) nofun (queueWork_governor h)

theorem settle_governorSound {s : State} (sound : GovernorSound s) : GovernorSound (settle s) :=
  governorSound_followed sound (settle_followedBy s)

theorem complete_governorSound {s : State} (sound : GovernorSound s) (v : Verdict) (detail : Nat) :
    GovernorSound (complete v detail s) := governorSound_followed sound (complete_followedBy v detail s)

/-! ## The coders -/

@[simp] theorem join_governor (e : Entry) (s : State) : (join e s).governor = s.governor := by
  rw [queueWork_governor (join_work e s)]
  rfl

@[simp] theorem handToken_governor (st : Stream) (first : Frame) (count : Nat) (label : Label) (s : State) :
    (handToken st first count label s).governor = s.governor := by
  have handed : ∀ fuel first count label s, (handGaps st fuel first count label s).governor = s.governor := by
    intro fuel
    induction fuel with
    | zero => exact fun _ _ _ _ => rfl
    | succ fuel ih =>
      intro first count label s
      unfold handGaps
      split
      · rfl
      · rw [ih, join_governor]
  exact handed _ _ _ _ _

/-- The Master Coder asks the governor nothing. -/
@[simp] theorem runMaster_governor (fuel : Nat) (s : State) : (runMaster fuel s).governor = s.governor := by
  induction fuel generalizing s with
  | zero => rfl
  | succ fuel ih =>
    unfold runMaster
    split
    · rfl
    · split
      · rfl
      · rfl
      · rw [ih, handToken_governor]

theorem takeProxyItem_governorSound {s : State} (sound : GovernorSound s) (item : SlotItem) :
    GovernorSound (takeProxyItem item s) := by
  have decided := afterDecision_sound sound
  unfold takeProxyItem
  dsimp only
  split
  · exact governorSound_of_keeps (o := .nobody) decided
      (coderWork_keeps ((join_coders _ _).trans (releaseSlot_work _ _))) nofun (by simp)
  · exact governorSound_of_eq decided rfl rfl

theorem runProxy_governorSound (fuel : Nat) {s : State} (sound : GovernorSound s) : GovernorSound (runProxy fuel s) := by
  induction fuel generalizing s with
  | zero => exact sound
  | succ fuel ih =>
    have taken : ∀ lists, GovernorSound { s with inputs := lists } := fun _ => governorSound_of_eq sound rfl rfl
    unfold runProxy
    split
    · exact sound
    · split
      · exact sound
      · exact ih (takeProxyItem_governorSound (taken _) _)
      · exact ih (governorSound_of_keeps (o := .nobody) (taken _) (coderWork_keeps (handToken_work .proxy _ _ _ _)) nofun
          (handToken_governor _ _ _ _ _))

theorem runCoders_governorSound {s : State} (sound : GovernorSound s) : GovernorSound (runCoders s) :=
  runProxy_governorSound _ (governorSound_of_keeps (o := .nobody) sound (coderWork_keeps (runMaster_work _ s)) nofun
    (runMaster_governor _ s))

theorem endAttempt_governor (payload : Nat) (s : State) : (endAttempt payload s).governor = s.governor := by
  have completed : ∀ p size tag u, (completeMaster p size tag u).governor = u.governor := fun p size tag u => by
    simp [completeMaster]
  unfold endAttempt
  split
  · rfl
  · dsimp only
    split_ifs
    · split <;> simp [completed]
    · simp [completed]

theorem endProxyCoding_governorSound (payload : Nat) {s : State} (sound : GovernorSound s) :
    GovernorSound (endProxyCoding payload s) := by
  unfold endProxyCoding
  split
  · exact sound
  · next p _ =>
    have charged : GovernorSound { s with
        freeTag := s.freeTag + 1, governor := afterCompletion (proxySize p payload) s.governor } :=
      governorSound_of_eq (afterCompletion_sound sound (proxySize p payload)) rfl rfl
    have released := governorSound_of_keeps (o := .nobody) charged
      (coderWork_keeps ((join_coders (codedEntry .proxy p.item (proxySize p payload) p.step 1 false s.freeTag) _).trans
        (releaseSlot_work p.item.slot _))) nofun (by simp)
    exact runProxy_governorSound _ (governorSound_of_eq released rfl rfl)

/-! ## Frames -/

theorem endMalformed_governorSound {s : State} (sound : GovernorSound s) (a : Arrival) (i : Nat) :
    GovernorSound (endMalformed a i s) :=
  governorSound_of_keeps (o := .nobody) sound (endMalformed_keeps a i s) nofun (by simp [endMalformed, recordGap])

theorem endUnmarked_governorSound {s : State} (sound : GovernorSound s) : GovernorSound (endUnmarked s) := by
  unfold endUnmarked
  split
  · exact sound
  · split
    · exact governorSound_of_eq sound rfl rfl
    · exact runCoders_governorSound (endMalformed_governorSound sound _ _)

theorem startFrame_governorSound {s : State} (sound : GovernorSound s) : GovernorSound (startFrame s) := by
  have started : GovernorSound { s with intake := { s.intake with
      counter := s.intake.counter + 1
      timecode := nextLabel s.rate s.intake.timecode
      arrival := some (newArrival s) } } := governorSound_of_eq sound rfl rfl
  unfold startFrame
  dsimp only
  split
  · exact governorSound_of_eq started rfl rfl
  · exact runCoders_governorSound (governorSound_of_keeps (o := .nobody) started (loseFrame_keeps _ _) nofun
      (by simp [loseFrame, recordGap]))

theorem reportStart_governor (x : Frame) (time : Nat) (s : State) : (reportStart x time s).governor = s.governor := by
  have counted : ∀ u, (countWait u).governor = u.governor := fun u => by
    unfold countWait
    split <;> simp
  simp [reportStart, counted, syncStart, countMissing]

theorem frameStart_governorSound (time : Nat) {s : State} (sound : GovernorSound s) : GovernorSound (frameStart time s) := by
  have ended := endUnmarked_governorSound sound
  unfold frameStart
  split
  · exact sound
  · exact settle_governorSound ended
  · exact settle_governorSound (governorSound_of_keeps (o := .nobody) (startFrame_governorSound ended)
      (reportStart_keeps _ _ _) nofun (reportStart_governor _ _ _))

theorem frameEnd_governorSound {s : State} (sound : GovernorSound s) : GovernorSound (frameEnd s) := by
  unfold frameEnd
  split
  · exact sound
  · exact sound
  · split
    · exact governorSound_of_eq sound rfl rfl
    · split_ifs
      · exact settle_governorSound (runCoders_governorSound (governorSound_of_eq sound rfl rfl))
      · exact settle_governorSound (runCoders_governorSound (endMalformed_governorSound sound _ _))

/-! ## Directives and resets -/

theorem takeDirective_governorSound {act : Block → State → State}
    (h : ∀ b u, GovernorSound u → GovernorSound (act b u)) (kind : DirectiveKind) {s : State} (sound : GovernorSound s) : GovernorSound (takeDirective kind act s) := by
  unfold takeDirective
  split
  · exact sound
  · exact settle_governorSound (h _ s sound)

/-- Held entries and marks go, and the roll floor moves, without the governor (R79, R96). -/
theorem restarted_governorSound {s : State} (sound : GovernorSound s) : GovernorSound (floorAtNext (discardHeld s)) :=
  governorSound_worked sound ((discardHeld_work s).trans (floorAtNext_work _))

theorem setupDirective_governorSound (b : Block) {s : State} (sound : GovernorSound s) :
    GovernorSound (setupDirective b s) := by
  unfold setupDirective
  split
  · exact complete_governorSound sound _ _
  · exact complete_governorSound (restarted_governorSound (startDerived_sound (h := s.governor) sound rfl rfl rfl)) _ _

theorem tuneDirective_governorSound (b : Block) {s : State} (sound : GovernorSound s) :
    GovernorSound (tuneDirective b s) := by
  obtain ⟨-, governor, -⟩ := tuneTaken_fields b.tuneFields s
  have setup := (tuneTaken_keeps b.tuneFields s).setup nofun
  simp only [setupPart, Prod.mk.injEq] at setup
  obtain ⟨geometry, -, -⟩ := setup
  exact complete_governorSound (governorTune_sound sound _ geometry governor) _ _

theorem startDirective_governorSound (b : Block) {s : State} (sound : GovernorSound s) :
    GovernorSound (startDirective b s) := by
  have started : GovernorSound (startIntake s) :=
    restarted_governorSound (governorSound_of_eq (startCredit_sound sound) rfl rfl)
  unfold startDirective
  split
  · split_ifs
    · exact complete_governorSound started _ _
    · exact complete_governorSound sound _ _
  all_goals exact complete_governorSound sound _ _

theorem engineReset_governorSound {s : State} (sound : GovernorSound s) : GovernorSound (engineReset s) := by
  have setup := (beginReset_keeps (o := .nobody) s).setup nofun
  simp only [setupPart, Prod.mk.injEq] at setup
  obtain ⟨geometry, -, -⟩ := setup
  have begun : GovernorSound (beginReset s) := governorEngineReset_sound sound geometry
    (by simp [beginReset, resetSync, resetWalker, resetWriters, resetClips, resetPictures, State.rate?])
  unfold engineReset
  dsimp only
  split_ifs
  · exact sound
  · exact settle_governorSound (governorSound_of_eq begun rfl rfl)
  · exact settle_governorSound begun

theorem fullReset_governorSound (s : State) : GovernorSound (fullReset s) := by
  obtain ⟨-, -, -, sound, -⟩ := resetMeetsInvariants
  exact governorSound_of_eq sound rfl rfl

/-! ## Every command -/

/-- The commands that the governor takes part in. -/
def reachesGovernor : Instr → Bool
  | .fullReset | .frameStart _ | .frameEnd | .proxyCodingEnd _ | .setup | .tune | .startIntake | .engineReset => true
  | _ => false

/-- Every other command leaves the governor as it is. -/
theorem exec_governor {c : Instr} {s t : State} (h : exec c s = .next t) (other : reachesGovernor c = false) :
    t.governor = s.governor := by
  cases c with
  | fullReset | frameStart time | frameEnd | proxyCodingEnd payload | setup | tune | startIntake | engineReset => cases other
  | line pixels check => cases h; exact takeLine_governor s pixels check
  | attemptEnd payload => cases h; rw [settle_governor, endAttempt_governor]
  | activityTableInitEnd => cases h; exact activityReady_governor s
  | lookCurveInitEnd => cases h; exact curveReady_governor s
  | entry value => cases h; rw [settle_governor, takeEntry_governor]
  | headerFetchDone bytes => cases h; exact answerOk_governor s (fun _ u => headerArrived_governor u bytes) _ _
  | bodyFetchDone bytes => cases h; exact answerOk_governor s (fun _ u => bodyArrived_governor u _ bytes) _ _
  | lines => cases h; exact takeDirective_governor s (fun b u => linesDirective_governor u b) _
  | loadTable => cases h; exact takeDirective_governor s (fun b u => loadDirective_governor u b) _
  | grant => cases h; exact takeDirective_governor s (fun b u => grantDirective_governor u b) _
  | relinquish => cases h; exact takeDirective_governor s (fun b u => relinquishDirective_governor u b) _
  | stopIntake => cases h; exact takeDirective_governor s (fun b u => stopDirective_governor u b) _
  | intakeDrained => cases h; exact intakeDrained_governor s
  | roll source => cases h; exact takeRoll_governor s source
  | cut source => cases h; exact takeCut_governor s source
  | mark source => cases h; exact takeMarkFrom_governor s source
  | setTimecode => cases h; exact takeDirective_governor s (fun b u => timecodeDirective_governor u b) _
  | wait => cases h; exact takeDirective_governor s (fun b u => waitDirective_governor u b) _
  | tableSourceReadDone bytes => cases h; exact answerOk_governor s (fun _ u => sourceArrived_governor u _ bytes) _ _
  | outcomeWriteDone => cases h; exact answerOk_governor s (fun _ => outcomeWritten_governor) _ _
  | refusedSlotWriteDone => cases h; exact answerOk_governor s (fun _ => refusedSlotWritten_governor) _ _
  | walkerReturnedCountDone => cases h; exact answerOk_governor s (fun _ => returnedCountWritten_governor) _ _
  | halt => cases h; exact takeHalt_governor s
  | resume => cases h; exact takeResume_governor s
  | stop => cases h; exact takeStop_governor s
  | freeze level => cases h; exact takeFreeze_governor s level
  | engineResetComplete => cases h; exact engineResetComplete_governor s
  | notice value => cases h; exact writeNotice_governor s value
  | noticeMask value => cases h; rfl
  | ignoredRegisterWrite offset value => cases h; rfl
  | pageRewriteDone => cases h; exact answerOk_governor s (fun _ _ => rfl) _ _
  | writerBurstDone => cases h; exact writerBurstDone_governor s
  | gapTimerExpiry stream => cases h; exact gapExpired_governor s stream
  | resultSlotBurstDone => cases h; exact answerOk_governor s (fun _ => resultSlotWritten_governor) _ _
  | resultCountBurstDone => cases h; exact answerOk_governor s (fun _ => segmentReturned_governor) _ _
  | burstRetry => cases h; exact answerRetry_governor s
  | burstError => cases h; exact answerError_governor s
  | rawLevelChange n drive time => cases h; exact rawChange_governor s n drive time
  | filterTimerExpiry n time => cases h; exact filterExpired_governor s n time
  | toggle n => cases h; exact takeToggle_governor s n
  | blinkTimerExpiry => cases h; exact blinkExpired_governor s

theorem exec_governorSound {c : Instr} {s t : State} (h : exec c s = .next t) (sound : GovernorSound s) :
    GovernorSound t := by
  by_cases reaches : reachesGovernor c = true
  · cases c with
    | fullReset => cases h; exact fullReset_governorSound s
    | frameStart time => cases h; exact frameStart_governorSound time sound
    | frameEnd => cases h; exact frameEnd_governorSound sound
    | proxyCodingEnd payload => cases h; exact settle_governorSound (endProxyCoding_governorSound payload sound)
    | setup => cases h; exact takeDirective_governorSound (fun b _ => setupDirective_governorSound b) _ sound
    | tune => cases h; exact takeDirective_governorSound (fun b _ => tuneDirective_governorSound b) _ sound
    | startIntake => cases h; exact takeDirective_governorSound (fun b _ => startDirective_governorSound b) _ sound
    | engineReset => cases h; exact engineReset_governorSound sound
    | _ => cases reaches
  · have keeps := exec_keeps h (by rintro rfl; exact reaches rfl)
    refine governorSound_of_keeps sound keeps (fun owner => ?_) (exec_governor h (Bool.eq_false_iff.mpr reaches))
    cases c with
    | setup => exact reaches rfl
    | _ => cases owner

/-- Settles O7: only eight commands reach the governor, and each of its operations keeps its bounds. -/
theorem stepKeepsGovernor : Obligations.StepKeepsGovernor := by
  intro s t sound h
  unfold step at h
  split at h
  · cases h
    exact sound
  · next c rest _ =>
    have front : GovernorSound { s with pending := rest } := governorSound_of_eq sound rfl rfl
    exact exec_governorSound h front

end Sys2Proof.Proofs
end

section
/-! SUPPORT. The held entries of a queue: how many frames they cover, and what aging, pieces and breaks do to them
(R74, R76, R80, R86). -/

namespace Sys2Proof.Proofs

open Sys2Proof.Machine Sys2Proof.Laws

/-! ## Lists of entries -/

/-- The held entries of a queue, in order. -/
abbrev heldOf (es : List Entry) : List Entry := es.filter Entry.isHeld

/-- Every held entry covers 1 to 65,535 frames. -/
abbrev HeldCounts (es : List Entry) : Prop := ∀ e ∈ es, e.isHeld = true → 1 ≤ e.count ∧ e.count ≤ 65535

theorem heldCounts_iff (es : List Entry) : HeldCounts es ↔ ∀ e ∈ heldOf es, 1 ≤ e.count ∧ e.count ≤ 65535 := by
  simp [HeldCounts, heldOf]

theorem HeldCounts.of_sublist {es fs : List Entry} (h : HeldCounts es) (fewer : (heldOf fs).Sublist (heldOf es)) :
    HeldCounts fs :=
  (heldCounts_iff fs).mpr fun e m => (heldCounts_iff es).mp h e (fewer.subset m)

theorem heldFrames_of_sublist {es fs : List Entry} (fewer : (heldOf fs).Sublist (heldOf es)) :
    heldFrames fs ≤ heldFrames es := (fewer.map Entry.count).sum_le_sum fun _ _ => Nat.zero_le _

theorem heldFrames_cons (e : Entry) (es : List Entry) :
    heldFrames (e :: es) = (if e.isHeld then e.count else 0) + heldFrames es := by
  cases held : e.isHeld <;> simp [heldFrames, held]

theorem heldFrames_eq_zero {es : List Entry} (h : ∀ e ∈ es, e.isHeld = false) : heldFrames es = 0 := by
  have none : heldOf es = [] := List.filter_eq_nil_iff.mpr fun e m => by simp [h e m]
  simp [heldFrames, none]

theorem heldFrames_firstHeld {es : List Entry} (none : firstHeld es = none) : heldFrames es = 0 :=
  heldFrames_eq_zero fun e m => by simpa using List.find?_eq_none.mp none e m

theorem heldOf_append (es : List Entry) {e : Entry} (committed : e.isHeld = false) : heldOf (es ++ [e]) = heldOf es := by
  simp [heldOf, committed]

theorem heldOf_tail (es : List Entry) : (heldOf es.tail).Sublist (heldOf es) := (List.tail_sublist es).filter _

/-- A change of the committed entries alone leaves the held ones as they are. -/
theorem heldOf_filterMap {f : Entry → Option Entry} (kept : ∀ e, e.isHeld = true → f e = some e)
    (committed : ∀ e k, e.isHeld = false → f e = some k → k.isHeld = false) (es : List Entry) :
    heldOf (es.filterMap f) = heldOf es := by
  induction es with
  | nil => rfl
  | cons e rest ih =>
    cases held : e.isHeld with
    | true => simp [heldOf, kept e held, held, ih]
    | false =>
      cases changed : f e with
      | none => simpa [heldOf, changed, held] using ih
      | some k => simpa [heldOf, changed, held, committed e k held changed] using ih

theorem heldOf_insertAfterLast {p : Entry → Bool} {e : Entry} (committed : e.isHeld = false) {es placed : List Entry}
    (h : insertAfterLast p e es = some placed) : heldOf placed = heldOf es := by
  induction es generalizing placed with
  | nil => cases h
  | cons a rest ih =>
    unfold insertAfterLast at h
    split at h
    · next found =>
      cases h
      simp [heldOf, List.filter_cons, ih found]
    · split at h
      · cases h
        simp [heldOf, List.filter_cons, committed]
      · cases h

theorem heldOf_placeTrailer (s : State) (c : Clip) {trailer : Entry} (committed : trailer.isHeld = false)
    (es : List Entry) : heldOf (placeTrailer s c trailer es) = heldOf es := by
  unfold placeTrailer
  cases own : insertAfterLast (fun e => e.clip == some c.number) trailer es with
  | some placed => exact heldOf_insertAfterLast committed own
  | none =>
    cases earlier : insertAfterLast (ofEarlierClip s c) trailer es with
    | some placed => exact heldOf_insertAfterLast committed earlier
    | none => simp [heldOf, committed]

/-- A break touches no held entry (R86). -/
theorem heldOf_broken (number : Nat) (x : Frame) (es : List Entry) :
    heldOf (es.filterMap (brokenEntry number x)) = heldOf es := by
  refine heldOf_filterMap (fun e held => ?_) (fun e k committed broken => ?_) es
  · have other : brokenClips number e = false := by
      simp [brokenClips, Option.isNone_iff_eq_none.mp held]
    simp [brokenEntry, other]
  · unfold brokenEntry at broken
    split_ifs at broken <;> cases broken <;> exact committed

/-! ## Aging -/

theorem isBelow_iff (g x : Frame) : isBelow g x = true ↔ 1 ≤ (x - g).toNat ∧ (x - g).toNat < 2 ^ 31 :=
  decide_eq_true_iff

/-- An entry that ages keeps at least one frame and gets none more (R80). -/
theorem agedEntry_count {r : Rate} {x : Frame} {e k : Entry} (counts : 1 ≤ e.count ∧ e.count ≤ 65535)
    (aged : agedEntry r x e = some k) : k.isHeld = e.isHeld ∧ 1 ≤ k.count ∧ k.count ≤ e.count := by
  unfold agedEntry at aged
  split_ifs at aged with all below
  · cases aged
    refine ⟨rfl, ?_, Nat.sub_le _ _⟩
    rw [isBelow_iff] at below
    rw [Entry.allBelow, isBelow_iff, Entry.last, lastFrame, frameAfter] at all
    show 1 ≤ e.count - (x - e.frame).toNat
    bv_omega
  · cases aged
    exact ⟨rfl, counts.1, Nat.le_refl _⟩

/-- The frames that a held entry covers once the aging line is `x`. -/
theorem agedEntry_frames {r : Rate} {x : Frame} {e : Entry} (counts : 1 ≤ e.count ∧ e.count ≤ 65535) :
    ((agedEntry r x e).map Entry.count).getD 0 ≤ e.count := by
  cases aged : agedEntry r x e with
  | none => exact Nat.zero_le _
  | some k => exact (agedEntry_count counts aged).2.2

/-- An entry loses a frame when the aging line goes past its first one. -/
theorem agedEntry_frames_lt {r : Rate} {e : Entry} (counts : 1 ≤ e.count ∧ e.count ≤ 65535) :
    ((agedEntry r (e.frame + 1) e).map Entry.count).getD 0 < e.count := by
  have one : (e.frame + 1 - e.frame).toNat = 1 := by bv_omega
  unfold agedEntry
  split_ifs with all below
  · exact counts.1
  · show e.count - (e.frame + 1 - e.frame).toNat < e.count
    omega
  · exact absurd (isBelow_next e.frame) below

theorem agedEntries_cons (r : Rate) (x : Frame) (e : Entry) (es : List Entry) : agedEntries r x (e :: es)
    = ((if e.isHeld then agedEntry r x e else some e).toList) ++ agedEntries r x es := by
  unfold agedEntries
  cases aged : (if e.isHeld then agedEntry r x e else some e) <;> simp [aged]

theorem agedEntries_counts {r : Rate} {x : Frame} {es : List Entry} (counts : HeldCounts es) :
    HeldCounts (agedEntries r x es) := by
  intro k member held
  obtain ⟨e, inside, aged⟩ := List.mem_filterMap.mp member
  split_ifs at aged with was
  · obtain ⟨-, low, high⟩ := agedEntry_count (counts e inside was) aged
    exact ⟨low, high.trans (counts e inside was).2⟩
  · cases aged
    exact absurd held was

/-- The frames of a queue's first entry that stay held once the aging line is `x`. -/
theorem heldFrames_aged_cons {r : Rate} {x : Frame} {e : Entry} {es : List Entry} (counts : HeldCounts (e :: es)) :
    heldFrames (agedEntries r x (e :: es))
      = (if e.isHeld then ((agedEntry r x e).map Entry.count).getD 0 else 0) + heldFrames (agedEntries r x es) := by
  rw [agedEntries_cons]
  split_ifs with held
  · cases aged : agedEntry r x e with
    | none => simp
    | some k =>
      have same := (agedEntry_count (counts e List.mem_cons_self held) aged).1
      simp [heldFrames_cons, same, held]
  · simp [heldFrames_cons, held]

theorem heldFrames_aged_le {r : Rate} {x : Frame} {es : List Entry} (counts : HeldCounts es) :
    heldFrames (agedEntries r x es) ≤ heldFrames es := by
  induction es with
  | nil => exact Nat.le_refl _
  | cons e rest ih =>
    rw [heldFrames_aged_cons counts, heldFrames_cons]
    have later := ih fun k member => counts k (List.mem_cons_of_mem _ member)
    split_ifs with held
    · exact Nat.add_le_add (agedEntry_frames (counts e List.mem_cons_self held)) later
    · exact Nat.add_le_add_left later _

/-- A round that ages the oldest held frame out takes one held frame at least (R79, R81). -/
theorem heldFrames_aged_lt {r : Rate} {old : Entry} {es : List Entry} (counts : HeldCounts es)
    (first : firstHeld es = some old) : heldFrames (agedEntries r (old.frame + 1) es) < heldFrames es := by
  induction es with
  | nil => cases first
  | cons e rest ih =>
    rw [heldFrames_aged_cons counts, heldFrames_cons]
    have tail : HeldCounts rest := fun k member => counts k (List.mem_cons_of_mem _ member)
    by_cases held : e.isHeld = true
    · obtain rfl : e = old := by simpa [firstHeld, held] using first
      simp only [held, if_true]
      exact Nat.add_lt_add_of_lt_of_le (agedEntry_frames_lt (counts e List.mem_cons_self held)) (heldFrames_aged_le tail)
    · simp only [held]
      exact Nat.add_lt_add_left (ih tail (by simpa [firstHeld, held] using first)) _

/-! ## Pieces -/

/-- The runs cover `n` frames, each at least one. -/
def Covers (n : Nat) (runs : List Run) : Prop := (∀ r ∈ runs, 1 ≤ r.count) ∧ (runs.map Run.count).sum = n

theorem addToRuns_covers {n : Nat} {runs : List Run} (h : Covers n runs) (cls : FrameClass) (i : Nat) :
    Covers (n + 1) (addToRuns cls i runs) := by
  obtain ⟨some, sum⟩ := h
  cases runs with
  | nil => exact ⟨by simp [addToRuns], congrArg (· + 1) sum⟩
  | cons r rest =>
    simp only [List.forall_mem_cons, List.map_cons, List.sum_cons] at some sum
    unfold addToRuns
    dsimp only
    split <;> simp only [Covers, List.forall_mem_cons, List.map_cons, List.sum_cons]
    · exact ⟨⟨Nat.le_add_left _ _, some.2⟩, by omega⟩
    · exact ⟨⟨Nat.le_refl _, some⟩, by omega⟩

/-- The runs of an entry's frames cover no more frames than the entry (R74). -/
theorem classRuns_counts {s : State} {e : Entry} {run : Run} (member : run ∈ classRuns s e) :
    1 ≤ run.count ∧ run.count ≤ e.count := by
  have covers : ∀ n, Covers n ((List.range n).foldl
      (fun runs i => addToRuns (classify s (frameAfter e.frame i)) i runs) []) := by
    intro n
    induction n with
    | zero => exact ⟨nofun, rfl⟩
    | succ n ih =>
      rw [List.range_succ, List.foldl_append]
      exact addToRuns_covers ih _ _
  obtain ⟨some, sum⟩ := covers e.count
  have inside := List.mem_reverse.mp member
  exact ⟨some run inside, (List.single_le_sum (fun _ _ => Nat.zero_le _) _ (List.mem_map_of_mem inside)).trans_eq sum⟩

end Sys2Proof.Proofs
end

section
/-! SUPPORT. What the Queue Manager and Clip Control leave of the held frames' limit (R81): joining, breaks, trailers,
aging, and the coders that hand entries over. -/

namespace Sys2Proof.Proofs

open Sys2Proof.Machine Sys2Proof.Laws

/-! ## The limit and the held frames -/

/-- What the limit of the held frames comes from (R78), and the limit. -/
def limitPart (s : State) := (s.intake.geometry, s.queue.depth, s.queue.limit)

theorem limit_of_part {s t : State} (h : limitPart t = limitPart s)
    (limit : s.queue.limit = prerollLimit s.rate? s.queue.depth) : t.queue.limit = prerollLimit t.rate? t.queue.depth := by
  simp only [limitPart, Prod.mk.injEq] at h
  obtain ⟨geometry, depth, same⟩ := h
  rw [same, depth, limit, State.rate?, State.rate?, geometry]

/-- `t` has its held frames within the limit if `s` has. -/
def KeepsHeld (s t : State) : Prop := HeldSound s → HeldSound t

theorem KeepsHeld.refl (s : State) : KeepsHeld s s := id

theorem KeepsHeld.trans {s t u : State} (h : KeepsHeld s t) (k : KeepsHeld t u) : KeepsHeld s u := fun sound => k (h sound)

theorem KeepsHeld.ite {s t u : State} {p : Prop} [Decidable p] (h : KeepsHeld s t) (k : KeepsHeld s u) :
    KeepsHeld s (if p then t else u) := by
  split
  · exact h
  · exact k

theorem KeepsHeld.foldl {α : Type} {f : State → α → State} {l : List α} (h : ∀ a ∈ l, ∀ s, KeepsHeld s (f s a))
    (s : State) : KeepsHeld s (l.foldl f s) := by
  induction l generalizing s with
  | nil => exact .refl s
  | cons a rest ih => exact (h a List.mem_cons_self s).trans (ih (fun b m => h b (List.mem_cons_of_mem _ m)) _)

/-- The limit stays, and held entries only go. -/
theorem KeepsHeld.of_fewer {s t : State} (part : limitPart t = limitPart s)
    (fewer : (heldOf (t.entries .master)).Sublist (heldOf (s.entries .master))) : KeepsHeld s t := fun sound =>
  have same : t.queue.limit = s.queue.limit := congrArg (·.2.2) part
  ⟨limit_of_part part sound.limit, HeldCounts.of_sublist sound.counts fewer,
    (heldFrames_of_sublist fewer).trans (sound.held.trans_eq same.symm)⟩

/-- The limit and the master queue's entries stay. -/
theorem KeepsHeld.of_same {s t : State} (part : limitPart t = limitPart s) (entries : t.entries .master = s.entries .master) :
    KeepsHeld s t := .of_fewer part (by rw [entries])

/-- The Queue Manager and the geometry stay. -/
theorem KeepsHeld.of_queue {s t : State} (geometry : t.intake.geometry = s.intake.geometry) (queue : t.queue = s.queue) :
    KeepsHeld s t := .of_same (by rw [limitPart, geometry, queue]; rfl) (by rw [State.entries, queue]; rfl)

theorem followedBy_keepsHeld {s t : State} (h : FollowedBy s t) : KeepsHeld s t :=
  .of_queue (by rw [h.intake.intake]) h.records.queue

theorem settle_keepsHeld {s t : State} (h : KeepsHeld s t) : KeepsHeld s (settle t) :=
  h.trans (followedBy_keepsHeld (settle_followedBy t))

theorem complete_keepsHeld {s t : State} (h : KeepsHeld s t) (v : Verdict) (detail : Nat) :
    KeepsHeld s (complete v detail t) := h.trans (followedBy_keepsHeld (complete_followedBy v detail t))

theorem QueueWork.limitPart {s t : State} (h : QueueWork s t) : limitPart t = limitPart s :=
  (congrArg Proofs.limitPart h.besides :)

theorem clipEvent_keepsHeld (event : ClipEvent) (n : Nat) (s : State) : KeepsHeld s (clipEvent event n s) :=
  .of_queue rfl rfl

theorem changeClip_keepsHeld (n : Nat) (f : Clip → Clip) (s : State) : KeepsHeld s (changeClip n f s) :=
  .of_queue rfl rfl

theorem lampOut_keepsHeld (s : State) : KeepsHeld s (lampOut s) := .ite (.of_queue rfl rfl) (.refl s)

theorem entries_putQueue (st : Stream) (es : List Entry) (s : State) : (putQueue st es s).entries st = es := by
  rw [putQueue_eq, entries_withEntries]

theorem entries_putQueue_other {st other : Stream} (es : List Entry) (s : State) (h : other ≠ st) :
    (putQueue st es s).entries other = s.entries other := by
  rw [putQueue_eq, entries_withEntries_other _ _ h]

theorem fewer_of_eq {es fs : List Entry} (same : heldOf fs = heldOf es) : (heldOf fs).Sublist (heldOf es) := by rw [same]

theorem putQueue_keepsHeld {st : Stream} {es : List Entry} {s : State}
    (fewer : (heldOf es).Sublist (heldOf (s.entries st))) : KeepsHeld s (putQueue st es s) := by
  refine .of_fewer (putQueue_work st es s).limitPart ?_
  cases st with
  | master => rw [entries_putQueue]; exact fewer
  | proxy => rw [entries_putQueue_other _ _ (by decide)]

theorem putProxy_keepsHeld (es : List Entry) (s : State) : KeepsHeld s (putQueue .proxy es s) :=
  .of_same (putQueue_work .proxy es s).limitPart (entries_putQueue_other _ _ (by decide))

/-- Both queues are replaced, the master's with no held entry more. -/
theorem putBoth_keepsHeld {es fs : List Entry} {s : State}
    (fewer : (heldOf es).Sublist (heldOf (s.entries .master))) :
    KeepsHeld s (putQueue .proxy fs (putQueue .master es s)) :=
  (putQueue_keepsHeld fewer).trans (putProxy_keepsHeld fs _)

/-! ## Aging -/

theorem setAging_master (x : Frame) (s : State) :
    (setAging x s).entries .master = agedEntries s.rate x (s.entries .master) := by
  rw [setAging_eq rfl rfl, entries_withEntries_other _ _ (by decide), entries_withEntries]

theorem setAging_keepsHeld (x : Frame) (s : State) : KeepsHeld s (setAging x s) := by
  intro sound
  have part := (setAging_work x s).limitPart
  have same : (setAging x s).queue.limit = s.queue.limit := congrArg (·.2.2) part
  refine ⟨limit_of_part part sound.limit, ?_, ?_⟩
  · rw [setAging_master]
    exact agedEntries_counts sound.counts
  · rw [setAging_master, same]
    exact (heldFrames_aged_le sound.counts).trans sound.held

/-- Aging one frame a round ends within the limit, in as many rounds as there are held frames. -/
theorem ageToLimit_within (fuel : Nat) {s : State} (counts : HeldCounts (s.entries .master))
    (enough : heldFrames (s.entries .master) ≤ fuel) :
    HeldCounts ((ageToLimit fuel s).entries .master)
      ∧ heldFrames ((ageToLimit fuel s).entries .master) ≤ s.queue.limit := by
  induction fuel generalizing s with
  | zero => exact ⟨counts, enough.trans (Nat.zero_le _)⟩
  | succ fuel ih =>
    unfold ageToLimit
    split
    · next within => exact ⟨counts, within⟩
    · split
      · next none => exact ⟨counts, by rw [heldFrames_firstHeld none]; exact Nat.zero_le _⟩
      · next old first =>
        have limit : (setAging (old.frame + 1) s).queue.limit = s.queue.limit :=
          congrArg (·.2.2) (setAging_work (old.frame + 1) s).limitPart
        have fewer := heldFrames_aged_lt (r := s.rate) counts first
        rw [← limit]
        refine ih ?_ ?_ <;> rw [setAging_master]
        · exact agedEntries_counts counts
        · omega

/-- Enforcing the limit brings the held frames within it, however many they are (R81). -/
theorem enforceLimit_sound {s : State} (limit : s.queue.limit = prerollLimit s.rate? s.queue.depth)
    (counts : HeldCounts (s.entries .master)) : HeldSound (enforceLimit s) := by
  have part := (ageToLimit_work (heldFrames (s.entries .master)) s).limitPart
  have same : (enforceLimit s).queue.limit = s.queue.limit := congrArg (·.2.2) part
  obtain ⟨counts', within⟩ := ageToLimit_within _ counts (Nat.le_refl _)
  exact ⟨limit_of_part part limit, counts', by rw [same]; exact within⟩

theorem ageForRoom_keepsHeld (st : Stream) (size : Nat) (first : Frame) (fuel : Nat) (s : State) :
    KeepsHeld s (ageForRoom st size first fuel s) := by
  induction fuel generalizing s with
  | zero => exact .refl s
  | succ fuel ih =>
    unfold ageForRoom
    split
    · exact .refl s
    · split
      · exact .refl s
      · exact .ite ((setAging_keepsHeld _ s).trans (ih _)) (.refl s)

theorem makeRoom_keepsHeld (piece : Entry) (s : State) : KeepsHeld s (makeRoom piece s) := ageForRoom_keepsHeld _ _ _ _ s

/-- Where no master entry is held, the held frames are within any limit. -/
theorem heldSound_of_none {s : State} (limit : s.queue.limit = prerollLimit s.rate? s.queue.depth)
    (none : ∀ e ∈ s.entries .master, e.isHeld = false) : HeldSound s :=
  ⟨limit, fun e m held => absurd (none e m) (by simp [held]), by rw [heldFrames_eq_zero none]; exact Nat.zero_le _⟩

theorem discardHeld_sound {s : State} (limit : s.queue.limit = prerollLimit s.rate? s.queue.depth) :
    HeldSound (discardHeld s) := by
  refine heldSound_of_none (limit_of_part (discardHeld_work s).limitPart limit) fun e m => ?_
  rw [discardHeld_entries] at m
  simpa [Entry.isHeld] using (List.mem_filter.mp m).2

/-! ## Trailers, breaks and pieces -/

theorem queueTrailers_keepsHeld (c : Clip) (k : Closing) (s : State) : KeepsHeld s (queueTrailers c k s) := by
  have placed := heldOf_placeTrailer s c (trailer := makeTrailer s c k .master) rfl (s.entries .master)
  exact (putBoth_keepsHeld (fewer_of_eq placed)).trans (changeClip_keepsHeld _ _ _)

theorem testTrailers_keepsHeld (n : Nat) (s : State) : KeepsHeld s (testTrailers n s) := by
  unfold testTrailers
  split
  · exact .refl s
  · split
    · exact .refl s
    · exact queueTrailers_keepsHeld _ _ s

theorem reportPiece_keepsHeld (n : Nat) (st : Stream) (e : Entry) (s : State) : KeepsHeld s (reportPiece n st e s) :=
  (changeClip_keepsHeld n _ s).trans (testTrailers_keepsHeld n _)

theorem breakReported_keepsHeld (n : Nat) (x : Frame) (st : Stream) (was : Bool) (s : State) :
    KeepsHeld s (breakReported n x st was s) := by
  have told : KeepsHeld s (clipEvent .broken n
      (reportFault ⟨.queueFull, .clipControl, none, some x, some st⟩ (raiseFloor x s))) := .of_queue rfl rfl
  exact .ite (told.trans (lampOut_keepsHeld _)) told

theorem breakClip_keepsHeld (n : Nat) (index : Bool) (e : Entry) (s : State) : KeepsHeld s (breakClip n index e s) := by
  have recorded := changeClip_keepsHeld n (brokenRecord s e.frame (breakReason index e.stream)) s
  have removed := recorded.trans (putBoth_keepsHeld (fs := (s.entries .proxy).filterMap (brokenEntry n e.frame))
    (fewer_of_eq (heldOf_broken n e.frame (s.entries .master))))
  exact ((removed.trans (breakReported_keepsHeld _ _ _ _ _)).trans (setAging_keepsHeld _ _)).trans
    (testTrailers_keepsHeld _ _)

theorem placeCommitted_keepsHeld (n : Nat) (e : Entry) (s : State) : KeepsHeld s (placeCommitted n e s) :=
  (putQueue_keepsHeld (fewer_of_eq (heldOf_append _ (e := { e with clip := some n, preroll := false }) rfl))).trans
    (reportPiece_keepsHeld _ _ _ _)

/-- A held master piece may bring the held frames over the limit, which is then enforced (R76, R81). -/
theorem placeHeld_keepsHeld {e : Entry} (counts : 1 ≤ e.count ∧ e.count ≤ 65535) (s : State) :
    KeepsHeld s (placeHeld e s) := by
  unfold placeHeld
  dsimp only
  split
  · next master =>
    refine fun sound => enforceLimit_sound (limit_of_part (putQueue_work _ _ s).limitPart sound.limit) ?_
    rw [master, entries_putQueue]
    intro k member held
    rcases List.mem_append.mp member with old | new
    · exact sound.counts k old held
    · obtain rfl := List.mem_singleton.mp new
      exact counts
  · next proxy =>
    rw [proxy]
    exact putProxy_keepsHeld _ s

theorem replaceOrBreak_keepsHeld (n : Nat) (index : Bool) (e : Entry) (s : State) :
    KeepsHeld s (replaceOrBreak n index e s) :=
  .ite (.ite (placeCommitted_keepsHeld _ _ s) (breakClip_keepsHeld _ _ _ s)) (breakClip_keepsHeld _ _ _ s)

theorem settlePiece_keepsHeld (cls : FrameClass) {e : Entry} (counts : 1 ≤ e.count ∧ e.count ≤ 65535) (s : State) :
    KeepsHeld s (settlePiece cls e s) := by
  cases cls with
  | committed n =>
    exact .ite ((makeRoom_keepsHeld e s).trans (placeCommitted_keepsHeld n e _))
      ((makeRoom_keepsHeld e s).trans (replaceOrBreak_keepsHeld _ _ _ _))
  | held =>
    exact .ite ((makeRoom_keepsHeld e s).trans (placeHeld_keepsHeld counts _))
      ((makeRoom_keepsHeld e s).trans (setAging_keepsHeld _ _))
  | dropped => exact .refl s

theorem markIntake_keepsHeld (e : Entry) (s : State) : KeepsHeld s (markIntake e s) := .of_same rfl rfl

theorem join_keepsHeld {e : Entry} (count : e.count ≤ 65535) (s : State) : KeepsHeld s (join e s) :=
  (markIntake_keepsHeld e s).trans (.foldl (fun run member t =>
    have ⟨low, high⟩ := classRuns_counts member
    settlePiece_keepsHeld run.cls (e := pieceOf t.rate e run) ⟨low, high.trans count⟩ t) _)

/-! ## The coders -/

theorem handGaps_keepsHeld (st : Stream) (fuel : Nat) (first : Frame) (count : Nat) (label : Label) (s : State) :
    KeepsHeld s (handGaps st fuel first count label s) := by
  induction fuel generalizing first count label s with
  | zero => exact .refl s
  | succ fuel ih =>
    unfold handGaps
    split
    · exact .refl s
    · exact (join_keepsHeld (Nat.min_le_right count 65535) s).trans (ih _ _ _ _)

theorem handToken_keepsHeld (st : Stream) (first : Frame) (count : Nat) (label : Label) (s : State) :
    KeepsHeld s (handToken st first count label s) := handGaps_keepsHeld st _ first count label s

theorem runMaster_keepsHeld (fuel : Nat) (s : State) : KeepsHeld s (runMaster fuel s) := by
  induction fuel generalizing s with
  | zero => exact .refl s
  | succ fuel ih =>
    have taken : ∀ lists, KeepsHeld s { s with inputs := lists } := fun _ => .of_queue rfl rfl
    unfold runMaster
    split
    · exact .refl s
    · split
      · exact .refl s
      · exact .of_queue rfl rfl
      · exact ((taken _).trans (handToken_keepsHeld .master _ _ _ _)).trans (ih _)

theorem releaseSlot_keepsHeld (i : Nat) (s : State) : KeepsHeld s (releaseSlot i s) := .of_queue rfl rfl

theorem takeProxyItem_keepsHeld (item : SlotItem) (s : State) : KeepsHeld s (takeProxyItem item s) := by
  have decided : KeepsHeld s { s with governor := afterDecision s.rate s.governor } := .of_queue rfl rfl
  unfold takeProxyItem
  dsimp only
  split
  · exact (decided.trans (join_keepsHeld (e := repeatEntry item) (Nat.le_of_ble_eq_true rfl) _)).trans
      (releaseSlot_keepsHeld _ _)
  · exact .of_queue rfl rfl

theorem runProxy_keepsHeld (fuel : Nat) (s : State) : KeepsHeld s (runProxy fuel s) := by
  induction fuel generalizing s with
  | zero => exact .refl s
  | succ fuel ih =>
    have taken : ∀ lists, KeepsHeld s { s with inputs := lists } := fun _ => .of_queue rfl rfl
    unfold runProxy
    split
    · exact .refl s
    · split
      · exact .refl s
      · exact ((taken _).trans (takeProxyItem_keepsHeld _ _)).trans (ih _)
      · exact ((taken _).trans (handToken_keepsHeld .proxy _ _ _ _)).trans (ih _)

theorem runCoders_keepsHeld {s t : State} (h : KeepsHeld s t) : KeepsHeld s (runCoders t) :=
  (h.trans (runMaster_keepsHeld _ t)).trans (runProxy_keepsHeld _ _)

theorem completeMaster_keepsHeld (p : MasterPicture) (size tag : Nat) (s : State) :
    KeepsHeld s (completeMaster p size tag s) := by
  have idle : ∀ u : State, KeepsHeld u { u with master := { u.master with picture := none } } := fun _ => .of_queue rfl rfl
  exact (((join_keepsHeld (e := codedEntry .master p.item size p.step p.attempt (exceedsCap p size) tag)
    (Nat.le_of_ble_eq_true rfl) s).trans (releaseSlot_keepsHeld p.item.slot _)).trans (idle _)).trans
    (runMaster_keepsHeld _ _)

theorem endAttempt_keepsHeld (payload : Nat) (s : State) : KeepsHeld s (endAttempt payload s) := by
  have tagged : KeepsHeld s { s with freeTag := s.freeTag + 1 } := .of_queue rfl rfl
  unfold endAttempt
  split
  · exact .refl s
  · refine .ite ?_ (tagged.trans (completeMaster_keepsHeld _ _ _ _))
    split
    · exact .of_queue rfl rfl
    · exact tagged.trans (completeMaster_keepsHeld _ _ _ _)

theorem endProxyCoding_keepsHeld (payload : Nat) (s : State) : KeepsHeld s (endProxyCoding payload s) := by
  unfold endProxyCoding
  split
  · exact .refl s
  · next p _ =>
    have charged : ∀ g, KeepsHeld s { s with freeTag := s.freeTag + 1, governor := g } := fun _ => .of_queue rfl rfl
    have idle : ∀ u : State, KeepsHeld u { u with proxy := { u.proxy with picture := none } } := fun _ => .of_queue rfl rfl
    exact ((((charged _).trans (join_keepsHeld (e := codedEntry .proxy p.item (proxySize p payload) p.step 1 false s.freeTag)
      (Nat.le_of_ble_eq_true rfl) _)).trans (releaseSlot_keepsHeld p.item.slot _)).trans (idle _)).trans
      (runProxy_keepsHeld _ _)

end Sys2Proof.Proofs
end

section
/-! SUPPORT. The commands that leave the Queue Manager as it is: the burst answers, the walker, most directives, marks,
the event lines and the registers. -/

namespace Sys2Proof.Proofs

open Sys2Proof.Machine Sys2Proof.Laws

@[simp] theorem ite_queue (p : Prop) [Decidable p] (s t : State) :
    (if p then s else t).queue = if p then s.queue else t.queue := apply_ite State.queue p s t

section
variable (s : State)

@[simp] theorem settle_queue : (settle s).queue = s.queue := (settle_followedBy s).records.queue

@[simp] theorem complete_queue (v : Verdict) (detail : Nat) : (complete v detail s).queue = s.queue :=
  (complete_followedBy v detail s).records.queue

@[simp] theorem goOrAbandon_queue (f : Flight) : (goOrAbandon f s).queue = s.queue :=
  (goOrAbandon_followedBy f s).records.queue

@[simp] theorem goInFlight_queue (f : Flight) : (goInFlight f s).queue = s.queue := rfl

@[simp] theorem requestBody_queue (b : Block) : (requestBody b s).queue = s.queue := rfl

@[simp] theorem requestSource_queue (b : Block) (got : List Byte) : (requestSource b got s).queue = s.queue := rfl

@[simp] theorem requestGrantWrite_queue (b : Block) (n : Nat) (left : List (Nat × Reason)) :
    (requestGrantWrite b n left s).queue = s.queue := (requestGrantWrite_followedBy b n left s).records.queue

@[simp] theorem putSegments_queue (st : Stream) (l : List Segment) : (putSegments st l s).queue = s.queue :=
  (putSegments_followedBy st l s).records.queue

@[simp] theorem closeSegment_queue (st : Stream) (r : Reason) : (closeSegment st r s).queue = s.queue :=
  (closeSegment_followedBy st r s).records.queue

@[simp] theorem closeUndone_queue (st : Stream) (r : Reason) (n : Nat) : (closeUndone st r n s).queue = s.queue :=
  (closeUndone_followedBy st r n s).records.queue

@[simp] theorem reportFault_queue (f : FaultReport) : (reportFault f s).queue = s.queue := rfl

/-! ## Bursts -/

@[simp] theorem endBurst_queue (r : Requester) (b : Burst) : (endBurst r b s).queue = s.queue := rfl

@[simp] theorem withdrawBurst_queue (r : Requester) : (withdrawBurst r s).queue = s.queue := by
  simp [withdrawBurst]

/-- An answer OK leaves the queues as they are if its owner does. -/
theorem answerOk_queue {act : Burst → State → State} (h : ∀ b u, (act b u).queue = u.queue) (r : Requester)
    (kind : BurstKind) : (answerOk r kind act s).queue = s.queue := by
  unfold answerOk
  split
  · rfl
  · simp [h]

theorem resultSlotWritten_queue : (resultSlotWritten s).queue = s.queue := by
  unfold resultSlotWritten
  split <;> rfl

theorem segmentReturned_queue : (segmentReturned s).queue = s.queue := by
  unfold segmentReturned
  split
  · rfl
  · simp [countRelinquished]

@[simp] theorem startChain_queue (a : Nat) : (startChain a s).queue = s.queue := rfl

@[simp] theorem endChain_queue : (endChain s).queue = s.queue := by
  unfold endChain
  dsimp only
  split <;> simp

@[simp] theorem endChainFault_queue (kind : FaultKind) (a : Nat) (x : Frame) :
    (endChainFault kind a x s).queue = s.queue := by simp [endChainFault]

theorem burstFailed_queue (r : Requester) (kind : FaultKind) (b : Burst) :
    (burstFailed r kind b s).queue = s.queue := by
  have result : (resultFailed b s).queue = s.queue := by
    unfold resultFailed
    split
    · rfl
    · simp [segmentReturned_queue]
  cases r with
  | walker => simp [burstFailed, walkerFailed]
  | page => simp [burstFailed, pageFailed, rewriteFailed, result]
  | master => simp [burstFailed, writerFailed]
  | proxy => simp [burstFailed, writerFailed]

theorem answerRetry_queue : (answerRetry s).queue = s.queue := by
  have waits : ∀ r u, (waitAgain r u).queue = u.queue := fun _ _ => rfl
  unfold answerRetry
  split
  · rfl
  · simp [retried, waits, burstFailed_queue]

theorem answerError_queue : (answerError s).queue = s.queue := by
  unfold answerError
  split
  · rfl
  · simp [errored, burstFailed_queue]

/-! ## The walker -/

theorem takeEntry_queue (v : BitVec 32) : (takeEntry v s).queue = s.queue := by
  have refused : ∀ r u, (refuseEntry r u).queue = u.queue := fun _ _ => rfl
  unfold takeEntry
  split_ifs
  · rfl
  · rfl
  · split <;> simp [holdEntry, refused]

@[simp] theorem handOver_queue (kind : DirectiveKind) : (handOver kind s).queue = s.queue := by
  cases kind <;> simp [handOver]

theorem headerArrived_queue (bytes : List Byte) : (headerArrived bytes s).queue = s.queue := by
  unfold headerArrived headerChecked
  split
  · rfl
  · dsimp only
    split <;> simp

theorem bodyArrived_queue (n : Nat) (bytes : List Byte) : (bodyArrived n bytes s).queue = s.queue := by
  unfold bodyArrived
  split
  · rfl
  · dsimp only
    split_ifs
    · rfl
    · split <;> simp

theorem sourceArrived_queue (n : Nat) (bytes : List Byte) : (sourceArrived n bytes s).queue = s.queue := by
  unfold sourceArrived
  split
  · rfl
  · split
    · simp [loadActivity, loadCurve]
    · rfl

theorem refusedSlotWritten_queue : (refusedSlotWritten s).queue = s.queue := by
  unfold refusedSlotWritten
  split
  · rfl
  · split <;> simp

theorem returnedCountWritten_queue : (returnedCountWritten s).queue = s.queue := by
  unfold returnedCountWritten
  split
  · rfl
  · split <;> simp

@[simp] theorem actOn_queue (c : Continuation) : (actOn c s).queue = s.queue := by
  have taken : ∀ a u, (takeBlock a u).queue = u.queue := fun _ _ => rfl
  cases c <;> simp [actOn, followNext, taken]

theorem outcomeWritten_queue : (outcomeWritten s).queue = s.queue := by
  unfold outcomeWritten
  split
  · rfl
  · split
    · simp [blockComplete, haltAt]
    · rfl

theorem takeHalt_queue : (takeHalt s).queue = s.queue := by
  unfold takeHalt
  split <;> rfl

theorem takeResume_queue : (takeResume s).queue = s.queue := by
  unfold takeResume
  split <;> simp

theorem takeStop_queue : (takeStop s).queue = s.queue := by
  have withdrawn : ∀ f u, (withdrawFlight f u).queue = u.queue := fun f u => by
    cases f <;> simp [withdrawFlight, withdrawRelinquish]
  unfold takeStop
  split
  · split <;> simp [withdrawn]
  all_goals simp

/-! ## Directives -/

theorem takeDirective_queue {act : Block → State → State} (h : ∀ b u, (act b u).queue = u.queue)
    (kind : DirectiveKind) : (takeDirective kind act s).queue = s.queue := by
  unfold takeDirective
  split
  · rfl
  · simp [h]

theorem linesDirective_queue (b : Block) : (linesDirective b s).queue = s.queue := by
  unfold linesDirective
  split <;> simp [linesTaken]

theorem loadDirective_queue (b : Block) : (loadDirective b s).queue = s.queue := by
  unfold loadDirective
  split_ifs
  · split <;> simp
  · simp

theorem grantDirective_queue (b : Block) : (grantDirective b s).queue = s.queue := by
  unfold grantDirective
  split <;> simp [grantTaken]

theorem relinquishDirective_queue (b : Block) : (relinquishDirective b s).queue = s.queue := by
  have begun : ∀ st close u, (beginRelinquish st close u).queue = u.queue := fun st close u => by
    unfold beginRelinquish
    dsimp only
    split <;> simp [closeAtOnce]
  unfold relinquishDirective
  split <;> simp [begun]

theorem stopDirective_queue (b : Block) : (stopDirective b s).queue = s.queue := by
  unfold stopDirective
  split <;> simp [stopIntake]

theorem timecodeDirective_queue (b : Block) : (timecodeDirective b s).queue = s.queue := by
  unfold timecodeDirective
  split <;> simp

theorem waitDirective_queue (b : Block) : (waitDirective b s).queue = s.queue := by
  simp [waitDirective]

/-! ## Marks and event lines -/

theorem takeMarkFrom_queue (source : Source) : (takeMarkFrom source s).queue = s.queue := by
  have taken : ∀ kind from_ u, (takeMark kind from_ u).queue = u.queue := fun kind from_ u => by
    have listed : ∀ u, (markListed u).queue = u.queue := fun u => by
      unfold markListed startBlink
      split <;> rfl
    unfold takeMark
    split <;> simp [listed, holdMark]
  unfold takeMarkFrom
  split
  · split
    · rfl
    · unfold markDirective
      split <;> simp [taken]
  · split <;> simp [taken]

theorem blinkExpired_queue : (blinkExpired s).queue = s.queue := by
  unfold blinkExpired
  split <;> rfl

@[simp] theorem judge_queue (r : CaptureResult) : (judge r s).queue = s.queue := by simp [judge]

@[simp] theorem capture_queue (phase : Nat) : (capture phase s).queue = s.queue := by simp [capture]

@[simp] theorem syncEdge_queue (time : Nat) : (syncEdge time s).queue = s.queue := by
  unfold syncEdge
  split <;> simp

@[simp] theorem changeLine_queue (n : LineNo) (time : Nat) (before after : Line) :
    (changeLine n time before after s).queue = s.queue := by
  have handed : ∀ u, (handEdge n after after.filtered time u).queue = u.queue := fun u => by
    unfold handEdge
    split <;> simp [handRequest]
  simp [changeLine, handed]

theorem rawChange_queue (n : LineNo) (drive : Option Level) (time : Nat) :
    (rawChange n drive time s).queue = s.queue := by
  unfold rawChange
  split <;> simp

theorem filterExpired_queue (n : LineNo) (time : Nat) : (filterExpired n time s).queue = s.queue := by
  unfold filterExpired
  split <;> simp

/-! ## Registers, the tables, lines of pixels and draining -/

theorem takeFreeze_queue (level : Bool) : (takeFreeze level s).queue = s.queue := by
  simp [takeFreeze, freezeSet, freezeReleased]

theorem engineResetComplete_queue : (engineResetComplete s).queue = s.queue := by
  simp [engineResetComplete, completeReset]

@[simp] theorem resumeLoad_queue (n : Nat) : (resumeLoad n s).queue = s.queue := by
  unfold resumeLoad
  split <;> simp

theorem activityReady_queue : (activityReady s).queue = s.queue := by
  unfold activityReady
  split <;> simp

theorem curveReady_queue : (curveReady s).queue = s.queue := by
  unfold curveReady
  split <;> simp

theorem takeLine_queue (pixels : List Pixel) (check : BitVec 16) : (takeLine pixels check s).queue = s.queue := by
  unfold takeLine
  split
  · rfl
  · rfl
  · split <;> rfl

end

/-- The commands that reach the Queue Manager. -/
def reachesQueue : Instr → Bool
  | .fullReset | .frameStart _ | .frameEnd | .attemptEnd _ | .proxyCodingEnd _ | .setup | .tune | .startIntake
  | .roll _ | .cut _ | .toggle _ | .writerBurstDone | .engineReset => true
  | _ => false

/-- Every other command leaves the Queue Manager as it is. -/
theorem exec_queue {c : Instr} {s t : State} (h : exec c s = .next t) (other : reachesQueue c = false) :
    t.queue = s.queue := by
  cases c with
  | fullReset | frameStart time | frameEnd | attemptEnd payload | proxyCodingEnd payload | setup | tune | startIntake
  | roll source | cut source | toggle n | writerBurstDone | engineReset => cases other
  | line pixels check => cases h; exact takeLine_queue s pixels check
  | activityTableInitEnd => cases h; exact activityReady_queue s
  | lookCurveInitEnd => cases h; exact curveReady_queue s
  | entry value => cases h; rw [settle_queue, takeEntry_queue]
  | headerFetchDone bytes => cases h; exact answerOk_queue s (fun _ u => headerArrived_queue u bytes) _ _
  | bodyFetchDone bytes => cases h; exact answerOk_queue s (fun _ u => bodyArrived_queue u _ bytes) _ _
  | lines => cases h; exact takeDirective_queue s (fun b u => linesDirective_queue u b) _
  | loadTable => cases h; exact takeDirective_queue s (fun b u => loadDirective_queue u b) _
  | grant => cases h; exact takeDirective_queue s (fun b u => grantDirective_queue u b) _
  | relinquish => cases h; exact takeDirective_queue s (fun b u => relinquishDirective_queue u b) _
  | stopIntake => cases h; exact takeDirective_queue s (fun b u => stopDirective_queue u b) _
  | intakeDrained => cases h; simp [intakeDrained]
  | mark source => cases h; exact takeMarkFrom_queue s source
  | setTimecode => cases h; exact takeDirective_queue s (fun b u => timecodeDirective_queue u b) _
  | wait => cases h; exact takeDirective_queue s (fun b u => waitDirective_queue u b) _
  | tableSourceReadDone bytes => cases h; exact answerOk_queue s (fun _ u => sourceArrived_queue u _ bytes) _ _
  | outcomeWriteDone => cases h; exact answerOk_queue s (fun _ => outcomeWritten_queue) _ _
  | refusedSlotWriteDone => cases h; exact answerOk_queue s (fun _ => refusedSlotWritten_queue) _ _
  | walkerReturnedCountDone => cases h; exact answerOk_queue s (fun _ => returnedCountWritten_queue) _ _
  | halt => cases h; exact takeHalt_queue s
  | resume => cases h; exact takeResume_queue s
  | stop => cases h; exact takeStop_queue s
  | freeze level => cases h; exact takeFreeze_queue s level
  | engineResetComplete => cases h; exact engineResetComplete_queue s
  | notice value => cases h; simp [writeNotice]
  | noticeMask value => cases h; rfl
  | ignoredRegisterWrite offset value => cases h; rfl
  | pageRewriteDone => cases h; exact answerOk_queue s (fun _ _ => rfl) _ _
  | gapTimerExpiry stream => cases h; simp [gapExpired]
  | resultSlotBurstDone => cases h; exact answerOk_queue s (fun _ => resultSlotWritten_queue) _ _
  | resultCountBurstDone => cases h; exact answerOk_queue s (fun _ => segmentReturned_queue) _ _
  | burstRetry => cases h; exact answerRetry_queue s
  | burstError => cases h; exact answerError_queue s
  | rawLevelChange n drive time => cases h; exact rawChange_queue s n drive time
  | filterTimerExpiry n time => cases h; exact filterExpired_queue s n time
  | blinkTimerExpiry => cases h; exact blinkExpired_queue s

end Sys2Proof.Proofs
end

section
/-! SUPPORT. The commands that reach the Queue Manager: pictures, the writers, Clip Control, SETUP, TUNE, START_INTAKE
and the resets. So every step keeps the held frames within the limit (R78 to R81). -/

namespace Sys2Proof.Proofs

open Sys2Proof.Machine Sys2Proof.Laws

/-! ## Frames -/

theorem endMalformed_keepsHeld (a : Arrival) (i : Nat) (s : State) : KeepsHeld s (endMalformed a i s) :=
  .of_queue rfl rfl

theorem endUnmarked_keepsHeld (s : State) : KeepsHeld s (endUnmarked s) := by
  unfold endUnmarked
  split
  · exact .refl s
  · split
    · exact .of_queue rfl rfl
    · exact runCoders_keepsHeld (endMalformed_keepsHeld _ _ s)

theorem startFrame_keepsHeld (s : State) : KeepsHeld s (startFrame s) := by
  have started : ∀ a label, KeepsHeld s { s with intake := { s.intake with
      counter := s.intake.counter + 1, timecode := label, arrival := some a } } := fun _ _ => .of_queue rfl rfl
  have lost : ∀ a u, KeepsHeld u (loseFrame a u) := fun _ _ => .of_queue rfl rfl
  unfold startFrame
  dsimp only
  split
  · exact .of_queue rfl rfl
  · exact runCoders_keepsHeld ((started _ _).trans (lost _ _))

theorem reportStart_queue (x : Frame) (time : Nat) (s : State) : (reportStart x time s).queue = s.queue := by
  have counted : ∀ u, (countWait u).queue = u.queue := fun u => by
    unfold countWait
    split <;> simp
  simp [reportStart, counted, syncStart, countMissing]

theorem reportStart_keepsHeld (x : Frame) (time : Nat) (s : State) : KeepsHeld s (reportStart x time s) := by
  have setup := (reportStart_keeps (o := .nobody) x time s).setup nofun
  exact .of_queue (congrArg Prod.fst setup) (reportStart_queue x time s)

theorem frameStart_keepsHeld (time : Nat) (s : State) : KeepsHeld s (frameStart time s) := by
  have ended := endUnmarked_keepsHeld s
  unfold frameStart
  split
  · exact .refl s
  · exact settle_keepsHeld ended
  · exact settle_keepsHeld ((ended.trans (startFrame_keepsHeld _)).trans (reportStart_keepsHeld _ _ _))

theorem frameEnd_keepsHeld (s : State) : KeepsHeld s (frameEnd s) := by
  unfold frameEnd
  split
  · exact .refl s
  · exact .refl s
  · split
    · exact .of_queue rfl rfl
    · have good : ∀ a i, KeepsHeld s (endGood a i s) := fun _ _ => .of_queue rfl rfl
      exact .ite (settle_keepsHeld (runCoders_keepsHeld (good _ _)))
        (settle_keepsHeld (runCoders_keepsHeld (endMalformed_keepsHeld _ _ s)))

/-! ## The writers -/

theorem trailerWritten_queue (n : Nat) (st : Stream) (s : State) : (trailerWritten n st s).queue = s.queue := by
  unfold trailerWritten
  dsimp only
  split
  · rfl
  · simp

/-- Removing the front entry takes a held one at most (R90). -/
theorem removeFront_keepsHeld (st : Stream) (e : Entry) (s : State) : KeepsHeld s (removeFront st e s) := by
  have removed : KeepsHeld s (putQueue st (s.entries st).tail s) := putQueue_keepsHeld (heldOf_tail _)
  have written : ∀ n u, KeepsHeld u (trailerWritten n st u) := fun n u =>
    .of_same (trailerWritten_work n st u).limitPart (by rw [State.entries, trailerWritten_queue]; rfl)
  unfold removeFront
  dsimp only
  split
  · split
    · exact removed.trans (written _ _)
    · exact removed
  · exact removed

theorem writerAdvanced_keepsHeld (st : Stream) (n : Nat) (s : State) : KeepsHeld s (writerAdvanced st n s) := by
  have put : ∀ w, KeepsHeld s (putWriter st w s) := fun _ => .of_queue rfl rfl
  have closed : ∀ r {u}, KeepsHeld s u → KeepsHeld s (closeSegment st r u) := fun r {u} h =>
    h.trans (followedBy_keepsHeld (closeSegment_followedBy st r u))
  unfold writerAdvanced
  dsimp only
  split
  · next e c _ _ =>
    have removed : ∀ w, KeepsHeld s (if decide (e.size ≤ (s.writer st).written + n) = true
        then removeFront st e (putWriter st w s) else putWriter st w s) := fun w =>
      .ite ((put w).trans (removeFront_keepsHeld st e _)) (put w)
    split
    · exact closed _ (removed _)
    · exact .ite (closed _ (removed _)) (removed _)
  · exact .refl s

theorem writerBurstDone_keepsHeld (s : State) : KeepsHeld s (writerBurstDone s) := by
  have ended : ∀ r b, KeepsHeld s (endBurst r b s) := fun _ _ => .of_queue rfl rfl
  unfold writerBurstDone
  split
  · exact .refl s
  · unfold answerOk
    split
    · exact .refl s
    · exact settle_keepsHeld (.ite (ended _ _) ((ended _ _).trans (writerAdvanced_keepsHeld _ _ _)))

/-! ## Clip Control -/

/-- A commit leaves no master entry held (R87). -/
theorem heldOf_committed (r : Rate) (n : Nat) (first : Frame) (es : List Entry) :
    heldOf (es.filterMap (commitEntry r n first)) = [] := by
  refine List.filter_eq_nil_iff.mpr fun k member held => ?_
  obtain ⟨e, -, committed⟩ := List.mem_filterMap.mp member
  unfold commitEntry at committed
  split_ifs at committed with was
  · obtain ⟨a, -, rfl⟩ := Option.map_eq_some_iff.mp committed
    cases held
  · cases committed
    exact was held

theorem commitFrom_keepsHeld (n : Nat) (first : Frame) (s : State) : KeepsHeld s (commitFrom n first s) := by
  have committed : KeepsHeld s (putQueue .proxy ((s.entries .proxy).filterMap (commitEntry s.rate n first))
      (putQueue .master ((s.entries .master).filterMap (commitEntry s.rate n first)) s)) :=
    putBoth_keepsHeld (by rw [heldOf_committed]; exact List.nil_sublist _)
  have reported : ∀ st u, KeepsHeld u (reportCommitted n st u) := fun st u =>
    .foldl (fun e _ t => reportPiece_keepsHeld n st e t) u
  exact ((committed.trans (setAging_keepsHeld _ _)).trans (reported .master _)).trans (reported .proxy _)

theorem openClip_keepsHeld (k : Nat) (first : Frame) (s : State) : KeepsHeld s (openClip k first s) := by
  have placed : KeepsHeld s (placeClip k (newClip first s) s) := .of_queue rfl rfl
  have opened : ∀ n first u, KeepsHeld u (clipEvent .opened n (moveMarks n first u)) := fun _ _ _ => .of_queue rfl rfl
  have lit : ∀ u, KeepsHeld u (lampOn u) := fun u => .ite (.of_queue rfl rfl) (.refl u)
  exact ((placed.trans (commitFrom_keepsHeld _ _ _)).trans (opened _ _ _)).trans (lit _)

theorem rollLine_keepsHeld (s : State) : KeepsHeld s (rollLine s) := by
  unfold rollLine
  split
  case h_1 => exact .refl s
  case h_4 => exact openClip_keepsHeld _ _ s
  all_goals exact clipEvent_keepsHeld _ _ s

theorem rollDirective_keepsHeld (s : State) : KeepsHeld s (rollDirective s) := by
  unfold rollDirective
  split
  case h_4 => exact complete_keepsHeld (openClip_keepsHeld _ _ s) _ _
  all_goals exact complete_keepsHeld (.refl s) _ _

theorem cutClip_keepsHeld (c : Clip) (s : State) : KeepsHeld s (cutClip c s) := by
  have closed : ∀ x, KeepsHeld s (clipEvent .closed c.number (raiseFloor (x + 1)
      (changeClip c.number (fun d => { d with closing := some ⟨x, .cutStopped⟩ }) s))) := fun _ => .of_queue rfl rfl
  have cancelled : KeepsHeld s (clipEvent .cancelled c.number (freeClip c.number s)) := .of_queue rfl rfl
  exact .ite (((closed _).trans (lampOut_keepsHeld _)).trans (testTrailers_keepsHeld _ _))
    (cancelled.trans (lampOut_keepsHeld _))

theorem cutLine_keepsHeld (s : State) : KeepsHeld s (cutLine s) := by
  unfold cutLine
  split
  · exact .refl s
  · exact cutClip_keepsHeld _ s

theorem cutDirective_keepsHeld (s : State) : KeepsHeld s (cutDirective s) := by
  unfold cutDirective
  split
  · exact complete_keepsHeld (.refl s) _ _
  · exact complete_keepsHeld (cutClip_keepsHeld _ s) _ _

theorem dropRequest_keepsHeld (n : LineNo) (s : State) : KeepsHeld s (dropRequest n s) := .of_queue rfl rfl

theorem takeRoll_keepsHeld (source : Source) (s : State) : KeepsHeld s (takeRoll source s) := by
  cases source with
  | directive => exact .ite (settle_keepsHeld (rollDirective_keepsHeld s)) (.refl s)
  | line n => exact .ite (settle_keepsHeld ((dropRequest_keepsHeld n s).trans (rollLine_keepsHeld _))) (.refl s)

theorem takeCut_keepsHeld (source : Source) (s : State) : KeepsHeld s (takeCut source s) := by
  cases source with
  | directive => exact .ite (settle_keepsHeld (cutDirective_keepsHeld s)) (.refl s)
  | line n => exact .ite (settle_keepsHeld ((dropRequest_keepsHeld n s).trans (cutLine_keepsHeld _))) (.refl s)

theorem takeToggle_keepsHeld (n : LineNo) (s : State) : KeepsHeld s (takeToggle n s) :=
  .ite (settle_keepsHeld ((dropRequest_keepsHeld n s).trans (.ite (cutLine_keepsHeld _) (rollLine_keepsHeld _)))) (.refl s)

/-! ## Directives and resets -/

theorem takeDirective_keepsHeld {act : Block → State → State} (h : ∀ b s, KeepsHeld s (act b s)) (kind : DirectiveKind)
    (s : State) : KeepsHeld s (takeDirective kind act s) := by
  unfold takeDirective
  split
  · exact .refl s
  · exact settle_keepsHeld (h _ s)

/-- A SETUP gives a new limit, and no entry stays held (R78, R79). -/
theorem setupDirective_keepsHeld (b : Block) (s : State) : KeepsHeld s (setupDirective b s) := by
  have floored : ∀ u, KeepsHeld u (floorAtNext u) := fun _ => .of_queue rfl rfl
  unfold setupDirective
  split
  · exact complete_keepsHeld (.refl s) _ _
  · exact complete_keepsHeld (fun _ => floored _ (discardHeld_sound rfl)) _ _

theorem startDirective_keepsHeld (b : Block) (s : State) : KeepsHeld s (startDirective b s) := by
  have floored : ∀ u, KeepsHeld u (floorAtNext u) := fun _ => .of_queue rfl rfl
  have started : KeepsHeld s (startIntake s) := fun sound => floored _ (discardHeld_sound sound.limit)
  unfold startDirective
  split
  · exact .ite (complete_keepsHeld started _ _) (complete_keepsHeld (.refl s) _ _)
  all_goals exact complete_keepsHeld (.refl s) _ _

theorem prerollLimit_mono (rate : Option Rate) {d e : Nat} (h : d ≤ e) : prerollLimit rate d ≤ prerollLimit rate e := by
  cases rate with
  | none => exact Nat.le_refl _
  | some r => exact Nat.div_le_div_right (Nat.sub_le_sub_right (Nat.add_le_add_right (Nat.mul_le_mul_right _ h) _) _)

/-- A new depth brings the held frames within its limit: none stays held at 0, the oldest age out under a smaller
depth, and a larger one has a larger limit (R79). -/
theorem heldUnder_sound (f : TuneFields) {s : State} (sound : HeldSound s) :
    HeldSound (heldUnder s.queue.depth (withDepth f s)) := by
  unfold heldUnder
  have rises : s.queue.depth ≤ (withDepth f s).queue.depth → HeldSound (withDepth f s) := fun rises =>
    ⟨rfl, sound.counts, sound.held.trans (sound.limit.trans_le (prerollLimit_mono _ rises))⟩
  split_ifs with same zero falls
  · exact rises same.ge
  · exact discardHeld_sound rfl
  · exact enforceLimit_sound rfl sound.counts
  · exact rises (Nat.le_of_not_lt falls)

theorem tuneTaken_keepsHeld (f : TuneFields) (s : State) : KeepsHeld s (tuneTaken f s) := by
  intro sound
  obtain ⟨-, -, queue, -⟩ := tuneTaken_fields f s
  obtain ⟨depth, -, limit⟩ := queuesTuned_queue f s
  have setup := (tuneTaken_keeps f s).setup nofun
  have rate : (tuneTaken f s).rate? = s.rate? := congrArg (fun g => g.1.map fun g => rateOf g.code) setup
  have entries : (tuneTaken f s).entries .master = (depthTuned f s).entries .master := by
    rw [← (queuesTuned_held f s).1, State.entries, State.entries, queue]
  have work := (heldUnder_heldWork s.queue.depth (withDepth f (tuneGovernor f (tuneMaster f s)))).besides
  have same : (depthTuned f s).queue.limit = prerollLimit s.rate? (min f.depth 30) :=
    (congrArg (fun u => u.queue.limit) work :)
  have aged : HeldSound (depthTuned f s) :=
    heldUnder_sound f (s := tuneGovernor f (tuneMaster f s)) ⟨sound.limit, sound.counts, sound.held⟩
  refine ⟨by rw [queue, limit, depth, rate], by rw [entries]; exact aged.counts, ?_⟩
  rw [entries, queue, limit, ← same]
  exact aged.held

theorem tuneDirective_keepsHeld (b : Block) (s : State) : KeepsHeld s (tuneDirective b s) :=
  complete_keepsHeld (tuneTaken_keepsHeld _ s) _ _

theorem engineReset_keepsHeld (s : State) : KeepsHeld s (engineReset s) := by
  have geometry : (beginReset s).intake.geometry = s.intake.geometry :=
    congrArg Prod.fst ((beginReset_keeps (o := .nobody) s).setup nofun)
  have queue : (beginReset s).queue = (resetClips s).queue := by
    simp only [beginReset, resetSync, queue_raiseIf, changeSync_queue, resetWalker, changeWalker_queue]
    rfl
  have part : limitPart (beginReset s) = limitPart s := by
    rw [limitPart, geometry, queue]
    rfl
  have empty : (beginReset s).entries .master = [] := by
    rw [State.entries, queue]
    rfl
  have begun : KeepsHeld s (beginReset s) := .of_fewer part (by rw [empty]; exact List.nil_sublist _)
  have completed : ∀ u, KeepsHeld u (completeReset u) := fun _ =>
    .of_queue (by simp [completeReset]) (by simp [completeReset])
  unfold engineReset
  dsimp only
  exact .ite (.refl s) (settle_keepsHeld (.ite (begun.trans (completed _)) begun))

theorem fullReset_keepsHeld (s : State) : KeepsHeld s (fullReset s) := fun _ => by
  obtain ⟨-, -, -, -, sound, -⟩ := resetMeetsInvariants
  exact KeepsHeld.of_queue (s := State.reset) rfl rfl sound

/-! ## Every command -/

theorem exec_keepsHeld {c : Instr} {s t : State} (h : exec c s = .next t) : KeepsHeld s t := by
  by_cases reaches : reachesQueue c = true
  · cases c with
    | fullReset => cases h; exact fullReset_keepsHeld s
    | frameStart time => cases h; exact frameStart_keepsHeld time s
    | frameEnd => cases h; exact frameEnd_keepsHeld s
    | attemptEnd payload => cases h; exact settle_keepsHeld (endAttempt_keepsHeld payload s)
    | proxyCodingEnd payload => cases h; exact settle_keepsHeld (endProxyCoding_keepsHeld payload s)
    | setup => cases h; exact takeDirective_keepsHeld setupDirective_keepsHeld _ s
    | tune => cases h; exact takeDirective_keepsHeld tuneDirective_keepsHeld _ s
    | startIntake => cases h; exact takeDirective_keepsHeld startDirective_keepsHeld _ s
    | roll source => cases h; exact takeRoll_keepsHeld source s
    | cut source => cases h; exact takeCut_keepsHeld source s
    | toggle n => cases h; exact takeToggle_keepsHeld n s
    | writerBurstDone => cases h; exact writerBurstDone_keepsHeld s
    | engineReset => cases h; exact engineReset_keepsHeld s
    | _ => cases reaches
  · have keeps := exec_keeps h (by rintro rfl; exact reaches rfl)
    have other : ownerOf c ≠ .setup := fun owner => by
      cases c with
      | setup => exact reaches rfl
      | _ => cases owner
    exact .of_queue (congrArg Prod.fst (keeps.setup other)) (exec_queue h (Bool.eq_false_iff.mpr reaches))

/-- Settles O8: only thirteen commands reach the Queue Manager, and none of its operations leaves more held frames than
the limit allows. -/
theorem stepKeepsHeld : Obligations.StepKeepsHeld := by
  intro s t sound h
  unfold step at h
  split at h
  · cases h
    exact sound
  · next c rest _ =>
    have front : KeepsHeld s { s with pending := rest } := .of_queue rfl rfl
    exact exec_keepsHeld h (front sound)

end Sys2Proof.Proofs
end

section
/-! SUPPORT. An OK burst of a Stream Writer that leaves its segment open (R126, R137). -/

namespace Sys2Proof.Proofs

open Sys2Proof.Machine Sys2Proof.Laws

theorem countGap_eq (gapTime n : Nat) (w : Writer) : countGap gapTime n w = { w with
    gapCount := if gapTime = 0 ∨ gapTime ≠ 0 ∧ 262144 ≤ w.gapCount + n then 0 else w.gapCount + n
    gapTimer := if gapTime ≠ 0 ∧ 262144 ≤ w.gapCount + n then some gapTime else w.gapTimer } := by
  unfold countGap
  by_cases off : gapTime = 0
  · simp [off]
  · by_cases full : 262144 ≤ w.gapCount + n <;> simp [off, full]

theorem advanceCurrent_eq (e : Entry) (written n : Nat) (c : Current) : advanceCurrent e written n c = { c with
    position := c.position + n
    clip := c.clip.or e.clip
    begun := if written = 0 then c.begun + 1 else c.begun
    first := if written = 0 then c.first.or (some e.frame) else c.first
    entryStart := if e.size ≤ written + n then none else if written = 0 then some c.position else c.entryStart } := by
  simp [advanceCurrent]

/-- The segment stays open where no trailer ends and the next burst, or the next entry's header, has room (R127). -/
theorem closeReasonAfter_none {e : Entry} {ended : Bool} {c : Current} (kind : e.kind ≠ .trailer)
    (room : c.position + (if ended = true then 32 else 1) ≤ c.segment.length) : closeReasonAfter e ended c = none := by
  unfold closeReasonAfter
  cases ended with
  | false =>
    have open_ : ¬ c.segment.length ≤ c.position := Nat.not_le.mpr room
    simp [open_]
  | true =>
    rw [if_pos rfl] at room
    have open_ : ¬ c.segment.length ≤ c.position := by omega
    have header : ¬ c.segment.length < c.position + 32 := Nat.not_lt.mpr room
    simp [kind, open_, header]

/-- The writer after an OK burst of `n` bytes of entry `e` into the segment `c`. -/
def burstWriter (gapTime n : Nat) (e : Entry) (c : Current) (w : Writer) : Writer :=
  countGap gapTime n { w with
    current := some (advanceCurrent e w.written n c)
    written := if e.size ≤ w.written + n then 0 else w.written + n }

theorem relinquish_burstWriter (gapTime n : Nat) (e : Entry) (c : Current) (w : Writer) :
    (burstWriter gapTime n e c w).relinquish = w.relinquish := by
  rw [burstWriter, countGap_eq]

section
variable {st : Stream} {n : Nat} {s : State} {e : Entry} {c : Current}

/-- With no RELINQUISH in hand and the segment still open, the burst advances the writer, and the entry leaves its queue
with its last byte (R90, R126). -/
theorem writerAdvanced_open (front : (s.entries st).head? = some e) (current : (s.writer st).current = some c)
    (idle : (s.writer st).relinquish = none)
    (stays : closeReasonAfter e (decide (e.size ≤ (s.writer st).written + n))
      (advanceCurrent e (s.writer st).written n c) = none) :
    writerAdvanced st n s = if e.size ≤ (s.writer st).written + n
      then removeFront st e (putWriter st (burstWriter s.writers.gapTime n e c (s.writer st)) s)
      else putWriter st (burstWriter s.writers.gapTime n e c (s.writer st)) s := by
  have waits : ∀ ended, closesNow ended (burstWriter s.writers.gapTime n e c (s.writer st)) = false := fun ended => by
    rw [closesNow, relinquish_burstWriter, idle]
    rfl
  unfold burstWriter at waits ⊢
  simp [writerAdvanced, front, current, stays, waits]

theorem removeFront_quiet (kind : e.kind ≠ .trailer)
    (quiet : markBytes st s.queue.highMark ≤ bytesInUse (s.entries st).tail → (s.queue.queues.get st).aboveMark = true) :
    removeFront st e s = { s with queue := { s.queue with
      queues := s.queue.queues.set
        ⟨(s.entries st).tail, decide (markBytes st s.queue.highMark ≤ bytesInUse (s.entries st).tail)⟩ st } } := by
  rw [removeFront]
  dsimp only
  rw [if_neg kind, putQueue_quiet quiet]

theorem writerBurstDone_eq {b : Burst} (port : OnPort (writerRequester st) .entry b s) :
    writerBurstDone s = settle (writerAdvanced st b.length (portEnded (writerRequester st) b s)) := by
  have writer : s.portWriter = some st := by
    rw [State.portWriter, port.1]
    cases st <;> rfl
  rw [writerBurstDone, writer]
  exact answerOk_eq _ port

end

/-- A writer's books, the queues and the port may change without ending a calm. -/
theorem calm_of_relinquish {s t : State} (calm : Calm s) (walker : t.walker = s.walker)
    (relinquish : ∀ st, (t.writer st).relinquish = (s.writer st).relinquish) : Calm t := by
  obtain ⟨master, proxy, still, drained⟩ := calm
  exact ⟨by rw [relinquish, master], by rw [relinquish, proxy], by rw [walker]; exact still,
    by rw [State.flight, walker]; exact drained⟩

/-- Settles O34, by whether the burst carried the entry's last byte. -/
theorem writerBurstAdvances : Obligations.WriterBurstAdvances := by
  intro s st b e c calm port front current w ends position c' gaps w' left above room kind
  have relinquish : ∀ st, (s.writer st).relinquish = none := fun st => by
    cases st
    · exact calm.1
    · exact calm.2.1
  have written : burstWriter s.writers.gapTime b.length e c w = w' := by
    rw [burstWriter, countGap_eq, advanceCurrent_eq]
  let ended := portEnded (writerRequester st) b s
  have advanced := writerAdvanced_open (s := ended) (n := b.length) front current (relinquish st)
    (closeReasonAfter_none kind (by
      simp only [decide_eq_true_eq]
      exact room))
  have calmed : ∀ queue, Calm { putWriter st w' ended with queue := queue } := fun queue =>
    calm_of_relinquish calm rfl fun other => by
      by_cases same : other = st
      · subst same
        show ((putWriter other w' ended).writer other).relinquish = _
        rw [writer_putWriter_same, ← written, relinquish_burstWriter]
      · exact congrArg Writer.relinquish (Per.get_set_other _ _ same)
  have settles : ∀ {u}, writerAdvanced st b.length ended = u → Calm u →
      ∃ t, exec .writerBurstDone s = .next t ∧ Follows u t := fun goes calm =>
    follows_of_settle (by rw [← goes]; exact congrArg Host.Outcome.next (writerBurstDone_eq port)) calm
  refine ⟨fun going => settles ?_ (calmed s.queue), fun all quiet => settles ?_ (calmed _)⟩
  · refine advanced.trans ((if_neg going).trans ?_)
    rw [← written]
    rfl
  · have flag : above = decide (markBytes st s.queue.highMark ≤ bytesInUse left) := by cases st <;> rfl
    have gone := removeFront_quiet (st := st) (s := putWriter st w' ended) kind fun full =>
      quiet (flag.trans (decide_eq_true full))
    refine advanced.trans ((if_pos all).trans ?_)
    refine (congrArg (fun w => removeFront st e (putWriter st w ended)) written).trans (gone.trans ?_)
    rw [flag]
    rfl

end Sys2Proof.Proofs
end

section
/-! SUPPORT. What stands aside from the queues, the clips and the notices; the end of the recording clip by CUT, and
its trailers (R88, R101, R102, R106). -/

namespace Sys2Proof.Proofs

open Sys2Proof.Machine Sys2Proof.Laws

/-! ## What stands aside -/

/-- All that neither the Queue Manager and Clip Control nor what follows at once changes, but for the error log. -/
def asideView (s : State) :=
  ((s.pending, s.notices.mask, s.notices.freeze, s.page.address), (s.intake, s.slots, s.inputs),
    (s.master, s.proxy, s.governor, s.freeTag), (s.lines.lines, s.lines.sync),
    (s.writers.watermark, s.writers.gapTime, s.writers.retry, s.writers.grants), s.arbiter.high, s.shared)

/-- What the error log holds. -/
def logOf (s : State) := (s.notices.log, s.notices.later)

theorem QueueWork.aside {s t : State} (h : QueueWork s t) : asideView t = asideView s := (congrArg asideView h.besides :)

theorem HeldWork.log {s t : State} (h : HeldWork s t) : logOf t = logOf s := (congrArg logOf h.besides :)

theorem followedBy_aside {s t : State} (h : FollowedBy s t) : asideView t = asideView s ∧ logOf t = logOf s := by
  obtain ⟨⟨intake, slots, inputs⟩, ⟨master, proxy, governor, tag⟩, -, lines,
    ⟨pending, mask, freeze, address, watermark, gapTime, retry, high⟩, shared, ⟨log, later⟩, grants, -, -⟩ := h
  simp only [asideView, logOf, intake, slots, inputs, master, proxy, governor, tag, lines, pending, mask, freeze, address,
    watermark, gapTime, retry, high, shared, log, later, grants, and_self]

/-- What stands aside, in the words of the statements. -/
structure KeepsAside (s t : State) : Prop where
  intake : KeepsIntake s t
  coders : KeepsCoders s t
  settings : KeepsSettings s t
  shared : t.shared = s.shared
  lines : t.lines.lines = s.lines.lines
  sync : t.lines.sync = s.lines.sync
  grants : t.writers.grants = s.writers.grants

theorem keepsAside_of_view {s t : State} (h : asideView t = asideView s) : KeepsAside s t := by
  simp only [asideView, Prod.mk.injEq] at h
  obtain ⟨⟨pending, mask, freeze, address⟩, ⟨intake, slots, inputs⟩, ⟨master, proxy, governor, tag⟩, ⟨lines, sync⟩,
    ⟨watermark, gapTime, retry, grants⟩, high, shared⟩ := h
  exact ⟨⟨intake, slots, inputs⟩, ⟨master, proxy, governor, tag⟩,
    ⟨pending, mask, freeze, address, watermark, gapTime, retry, high⟩, shared, lines, sync, grants⟩

theorem keepsLog_of_eq {s t : State} (h : logOf t = logOf s) : KeepsLog s t := by
  simp only [logOf, Prod.mk.injEq] at h
  exact ⟨h.1, h.2⟩

/-! ## The record of a clip -/

theorem recording_records {c : Clip} {s : State} (h : Records c s) : s.recording = some c := by
  obtain ⟨mem, recording, only⟩ := h
  exact mem_unique_of_find mem (by simp [recording]) fun d m open_ => only d m (.inl (by simpa using open_))

theorem clipNumbered_withClip {c d : Clip} {s : State} (mem : c ∈ s.clipList) (number : d.number = c.number) :
    (withClip d s).clipNumbered c.number = some d := by
  rw [State.clipNumbered, clipList_withClip]
  refine mem_unique_of_find (List.mem_map.mpr ⟨c, mem, by simp [number]⟩) (by simp [number]) fun b m same => ?_
  obtain ⟨a, -, rfl⟩ := List.mem_map.mp m
  by_cases own : a.number = d.number
  · simp [own]
  · rw [if_neg own] at same
    exact absurd ((by simpa using same : a.number = c.number).trans number.symm) own

theorem clipList_changeClip (n : Nat) (f : Clip → Clip) (s : State) :
    (changeClip n f s).clipList = s.clipList.map fun c => if c.number = n then f c else c := by
  unfold State.clipList changeClip
  dsimp only
  induction s.clips.table with
  | nil => rfl
  | cons r rest ih => cases r <;> simpa using ih

/-- A change that keeps the numbers changes the record with its number. -/
theorem clipNumbered_changeClip {f : Clip → Clip} (number : ∀ c, (f c).number = c.number) (n : Nat) (s : State) :
    (changeClip n f s).clipNumbered n = (s.clipNumbered n).map f := by
  rw [State.clipNumbered, State.clipNumbered, clipList_changeClip]
  induction s.clipList with
  | nil => rfl
  | cons c rest ih =>
    by_cases same : c.number = n
    · simp [same, number]
    · simpa [same] using ih

/-! ## Closing and cancelling -/

/-- In AUTO the lamp is dark, with no blink (R114). -/
def darkened (s : State) : State :=
  { s with clips := { s.clips with
    lamp := if s.clips.tallyMode = .auto then .dark else s.clips.lamp
    blinkTimer := if s.clips.tallyMode = .auto then none else s.clips.blinkTimer } }

theorem lampOut_eq (s : State) : lampOut s = darkened s := by
  unfold lampOut darkened
  split <;> rfl

/-- `s` with the clip `c` closed at the frame `x` (R101), before its trailers. -/
def clipClosed (c : Clip) (x : Frame) (s : State) : State :=
  darkened (raise .clip { withClip { c with closing := some ⟨x, .cutStopped⟩ } s with
    clips := { (withClip { c with closing := some ⟨x, .cutStopped⟩ } s).clips with
      rollFloor := raiseTo (x + 1) s.clips.rollFloor, lastEvent := some (.closed, c.number) } })

/-- `s` with the clip `c` cancelled (R102). -/
def clipCancelled (c : Clip) (s : State) : State :=
  darkened (raise .clip { s with clips := { s.clips with
    table := s.clips.table.map fun r => r.filter fun d => d.number != c.number
    lastEvent := some (.cancelled, c.number) } })

theorem hasStarted_iff (s : State) (c : Clip) :
    hasStarted s c = true ↔ ∃ x, s.clips.recentStart = some x ∧ isBelow x c.first = false := by
  unfold hasStarted
  cases s.clips.recentStart <;> simp

section
variable {c : Clip} {x : Frame} {s : State}

theorem notStarted (all : s.clips.recentStart.all (fun x => isBelow x c.first) = true) : hasStarted s c = false := by
  rw [← Bool.not_eq_true, hasStarted_iff]
  rintro ⟨x, recent, above⟩
  simp [recent, above] at all

theorem cutClip_cancels (all : s.clips.recentStart.all (fun x => isBelow x c.first) = true) :
    cutClip c s = clipCancelled c s := by
  rw [cutClip, notStarted all, if_neg Bool.false_ne_true, cancelClip, lampOut_eq]
  rfl

theorem cutClip_closes (records : Records c s) (recent : s.clips.recentStart = some x)
    (above : isBelow x c.first = false) : cutClip c s = testTrailers c.number (clipClosed c x s) := by
  rw [cutClip, if_pos ((hasStarted_iff s c).mpr ⟨x, recent, above⟩), recent, Option.getD_some, closeClip,
    lampOut_eq, changeClip_records records (fun d => { d with closing := some ⟨x, .cutStopped⟩ }) rfl]
  rfl

theorem clipNumbered_clipClosed (records : Records c s) :
    (clipClosed c x s).clipNumbered c.number = some { c with closing := some ⟨x, .cutStopped⟩ } :=
  clipNumbered_withClip (d := { c with closing := some ⟨x, .cutStopped⟩ }) records.1 rfl

/-- Before both streams have reached past the last frame no trailer is due (R106). -/
theorem cutClip_waits (records : Records c s) (recent : s.clips.recentStart = some x)
    (above : isBelow x c.first = false) (short : c.reach ≠ ⟨x + 1, x + 1⟩) : cutClip c s = clipClosed c x s := by
  have early : trailerDue { c with closing := some ⟨x, .cutStopped⟩ } = none := by
    refine Option.filter_eq_none_iff.mpr fun k closing due => short ?_
    cases closing
    simp only [Bool.and_eq_true, beq_iff_eq] at due
    obtain ⟨⟨-, master⟩, proxy⟩ := due
    exact congrArg₂ Per.mk master proxy
  rw [cutClip_closes records recent above, testTrailers, clipNumbered_clipClosed records]
  simp [early]

end

/-! ## The trailers -/

theorem insertAfterLast_last {p : Entry → Bool} {a : Entry} (e : Entry) {es : List Entry} (last : es.getLast? = some a)
    (holds : p a = true) : insertAfterLast p e es = some (es ++ [e]) := by
  induction es with
  | nil => cases last
  | cons b rest ih =>
    cases rest with
    | nil =>
      obtain rfl : b = a := by simpa using last
      simp [insertAfterLast, holds]
    | cons d more =>
      rw [insertAfterLast, ih (by simpa using last)]
      rfl

/-- A trailer goes directly behind its clip's last entry, where that is the last of the queue (R88). -/
theorem placeTrailer_last {s : State} {c : Clip} {a : Entry} (trailer : Entry) {es : List Entry}
    (last : es.getLast? = some a) (own : a.clip = some c.number) : placeTrailer s c trailer es = es ++ [trailer] := by
  rw [placeTrailer, insertAfterLast_last trailer last (by simp [own])]
  rfl

theorem queueTrailers_entries (c : Clip) (k : Closing) (s : State) (st : Stream) :
    (queueTrailers c k s).entries st = placeTrailer s c (makeTrailer s c k st) (s.entries st) := by
  show (putQueue .proxy _ (putQueue .master _ s)).entries st = _
  cases st with
  | master => rw [entries_putQueue_other _ _ (by decide), entries_putQueue]
  | proxy => rw [entries_putQueue]

theorem queueTrailers_clipNumbered (c : Clip) (k : Closing) (s : State) : (queueTrailers c k s).clipNumbered c.number
    = (s.clipNumbered c.number).map fun d => { d with queued := ⟨true, true⟩ } := by
  rw [queueTrailers, clipNumbered_changeClip (f := fun d => { d with queued := ⟨true, true⟩ }) fun _ => rfl]
  simp only [State.clipNumbered, State.clipList, putQueue_eq, clips_withEntries]

theorem queueTrailers_log (c : Clip) (k : Closing) (s : State) : logOf (queueTrailers c k s) = logOf s :=
  ((putQueue_heldWork .master _ s).trans (putQueue_heldWork .proxy _ _)).log

/-- A CUT that closes a clip which both streams have passed queues its trailers at once. -/
theorem cutClip_queues {c : Clip} {x : Frame} {s : State} (records : Records c s) (recent : s.clips.recentStart = some x)
    (above : isBelow x c.first = false) (reach : c.reach = ⟨x + 1, x + 1⟩) (queued : c.queued = ⟨false, false⟩) :
    cutClip c s = queueTrailers { c with closing := some ⟨x, .cutStopped⟩ } ⟨x, .cutStopped⟩ (clipClosed c x s) := by
  have due : trailerDue { c with closing := some ⟨x, .cutStopped⟩ } = some ⟨x, .cutStopped⟩ := by
    simp [trailerDue, reach, queued]
  rw [cutClip_closes records recent above, testTrailers, clipNumbered_clipClosed records]
  simp [due]

/-! ## CUT -/

theorem calm_cut {c : Clip} {s : State} (calm : Calm s) : Calm (cutClip c s) := (cutClip_work c s).coders.calm calm

theorem cut_directive {b : Block} {s : State} (flies : FliesAs .cut b s) :
    exec (.cut .directive) s = .next (settle (cutDirective s)) := by
  show Host.Outcome.next (takeCut .directive s) = _
  rw [takeCut, if_pos (flight_eq flies)]

theorem cut_line {n : LineNo} {s : State} (request : firstRequest n s.lines.requests = some .cut) :
    exec (.cut (.line n)) s = .next (settle (cutLine (dropRequest n s))) := by
  show Host.Outcome.next (takeCut (.line n) s) = _
  rw [takeCut, if_pos request]

theorem cutDirective_eq {b : Block} {c : Clip} {s : State} (flies : FliesAs .cut b s) (records : Records c s) :
    cutDirective s = answered (if hasStarted s c then .done else .cancelled) c.number b (cutClip c s) := by
  have walker : (cutClip c s).walker = s.walker := (congrArg State.walker (cutClip_work c s).besides :)
  rw [cutDirective, recording_records records]
  exact complete_eq _ _ (by rw [walker]; exact flies.1)

/-- The first part of O30: what a CUT does with no clip RECORDING, with one whose first frame has not started, and with
one that has started and is not yet complete in the queues. -/
theorem cut_follows {s : State} (calm : Calm s) :
    (∀ b, FliesAs .cut b s →
      (s.recording = none → ∃ t, exec (.cut .directive) s = .next t ∧ Follows (answered .already 0 b s) t) ∧
      (∀ c, Records c s →
        (s.clips.recentStart.all (fun x => isBelow x c.first) = true →
          ∃ t, exec (.cut .directive) s = .next t ∧
            Follows (answered .cancelled c.number b (clipCancelled c s)) t) ∧
        (∀ x, s.clips.recentStart = some x → isBelow x c.first = false → c.reach ≠ ⟨x + 1, x + 1⟩ →
          ∃ t, exec (.cut .directive) s = .next t ∧
            Follows (answered .done c.number b (clipClosed c x s)) t))) ∧
    (∀ n, firstRequest n s.lines.requests = some .cut →
      (s.recording = none → ∃ t, exec (.cut (.line n)) s = .next t ∧ Follows (dropRequest n s) t) ∧
      (∀ c, Records c s →
        (s.clips.recentStart.all (fun x => isBelow x c.first) = true →
          ∃ t, exec (.cut (.line n)) s = .next t ∧ Follows (clipCancelled c (dropRequest n s)) t) ∧
        (∀ x, s.clips.recentStart = some x → isBelow x c.first = false → c.reach ≠ ⟨x + 1, x + 1⟩ →
          ∃ t, exec (.cut (.line n)) s = .next t ∧ Follows (clipClosed c x (dropRequest n s)) t))) := by
  refine ⟨fun b flies => ?_, fun n request => ?_⟩
  · have answers : ∀ {u : State} (v : Verdict) (detail : Nat), cutDirective s = answered v detail b u → Calm u →
        ∃ t, exec (.cut .directive) s = .next t ∧ Follows (answered v detail b u) t := fun v detail acts calm =>
      follows_of_settle (by rw [cut_directive flies, acts]) (calm_answered v detail b calm.1 calm.2.1)
    refine ⟨fun idle => answers _ _ ?_ calm, fun c records => ⟨fun before => ?_, fun x recent above short => ?_⟩⟩
    · rw [cutDirective, idle]
      exact complete_eq _ _ flies.1
    · rw [← cutClip_cancels before]
      exact answers _ _ (by rw [cutDirective_eq flies records, notStarted before]; rfl) (calm_cut calm)
    · rw [← cutClip_waits records recent above short]
      have started := (hasStarted_iff s c).mpr ⟨x, recent, above⟩
      exact answers _ _ (by rw [cutDirective_eq flies records, if_pos started]) (calm_cut calm)
  · have acts : ∀ {u : State}, cutLine (dropRequest n s) = u → Calm u →
        ∃ t, exec (.cut (.line n)) s = .next t ∧ Follows u t := fun goes =>
      follows_of_settle (by rw [cut_line request, goes])
    have cuts : ∀ c, Records c s → cutLine (dropRequest n s) = cutClip c (dropRequest n s) := fun c records => by
      rw [cutLine, recording_records (s := dropRequest n s) records]
    refine ⟨fun idle => acts ?_ calm, fun c records => ⟨fun before => ?_, fun x recent above short => ?_⟩⟩
    · rw [cutLine, show (dropRequest n s).recording = none from idle]
    · rw [← cutClip_cancels (s := dropRequest n s) before]
      exact acts (cuts c records) (calm_cut calm)
    · rw [← cutClip_waits (s := dropRequest n s) records recent above short]
      exact acts (cuts c records) (calm_cut calm)

/-- The walker's record after a CUT that closes a clip: a directive is answered, a line has no outcome (R101). -/
def walkerAfterCut (source : Source) (k : Block) (c : Clip) (s : State) : Walker :=
  match source with
  | .directive => (answered .done c.number k s).walker
  | .line _ => s.walker

/-- A CUT of either source that closes a clip acts on a state with the line's request gone, and then answers a
directive. -/
theorem cut_acts {source : Source} {k : Block} {c : Clip} {s : State} (calm : Calm s)
    (flies : source = .directive → FliesAs .cut k s)
    (request : ∀ n, source = .line n → firstRequest n s.lines.requests = some .cut) (records : Records c s)
    (started : hasStarted s c = true) : ∃ taken u, exec (.cut source) s = .next (settle u) ∧ Calm u
      ∧ (taken = s ∨ ∃ n, taken = dropRequest n s) ∧ u.clips = (cutClip c taken).clips
      ∧ u.queue = (cutClip c taken).queue ∧ asideView u = asideView (cutClip c taken)
      ∧ logOf u = logOf (cutClip c taken) ∧ u.walker = walkerAfterCut source k c s := by
  cases source with
  | directive =>
    have acts : cutDirective s = answered .done c.number k (cutClip c s) := by
      rw [cutDirective_eq (flies rfl) records, if_pos started]
    have same : (cutClip c s).walker = s.walker ∧ (cutClip c s).intake = s.intake :=
      ⟨(congrArg State.walker (cutClip_work c s).besides :), (congrArg State.intake (cutClip_work c s).besides :)⟩
    refine ⟨s, _, by rw [cut_directive (flies rfl), acts],
      calm_answered .done c.number k (calm_cut calm).1 (calm_cut calm).2.1, .inl rfl, rfl, rfl, rfl, rfl, ?_⟩
    simp only [walkerAfterCut, answered, same]
  | line n =>
    have acts : cutLine (dropRequest n s) = cutClip c (dropRequest n s) := by
      rw [cutLine, recording_records (s := dropRequest n s) records]
    exact ⟨dropRequest n s, _, by rw [cut_line (request n rfl), acts], calm_cut (s := dropRequest n s) calm,
      .inr ⟨n, rfl⟩, rfl, rfl, rfl, rfl, (congrArg State.walker (cutClip_work c (dropRequest n s)).besides :)⟩

/-- Settles O30, by the source of the CUT and what it finds. -/
theorem cutEnds : Obligations.CutEnds := by
  refine ⟨fun s calm => cut_follows calm, ?_⟩
  intro s source k c x st e calm flies request records recent above reach queued last own
  obtain ⟨taken, u, command, calm', from_, clips, queue, aside, log, walker⟩ :=
    cut_acts calm flies request records ((hasStarted_iff s c).mpr ⟨x, recent, above⟩)
  have same : taken.clips = s.clips ∧ taken.queue = s.queue ∧ taken.governor = s.governor
      ∧ asideView taken = asideView s ∧ logOf taken = logOf s := by
    rcases from_ with rfl | ⟨n, rfl⟩ <;> exact ⟨rfl, rfl, rfl, rfl, rfl⟩
  obtain ⟨sameClips, sameQueue, sameGovernor, sameAside, sameLog⟩ := same
  have records' : Records c taken := by
    have list : taken.clipList = s.clipList := by simp only [State.clipList, sameClips]
    rw [Records, list]
    exact records
  have cut := cutClip_queues records' (by rw [sameClips]; exact recent) above reach queued
  have work := cutClip_work c taken
  have follow := settle_followedBy u
  obtain ⟨laterAside, laterLog⟩ := followedBy_aside follow
  have entries : ∀ st, (settle u).entries st = (cutClip c taken).entries st := fun st => by
    rw [State.entries, follow.records.queue, queue]
    rfl
  have before : (clipClosed c x taken).entries st = s.entries st := by
    show taken.entries st = _
    rw [State.entries, sameQueue]
    rfl
  obtain ⟨intake, coders, settings, shared, lines, -, grants⟩ :=
    keepsAside_of_view (laterAside.trans (aside.trans (work.aside.trans sameAside)))
  have answer := (settle_follows u calm').walker.trans walker
  refine ⟨settle u, command, ?_, ?_, answer.trans (by cases source <;> rfl), intake, coders, settings,
    keepsLog_of_eq ?_, shared, lines, grants⟩
  · have numbered : (settle u).clipNumbered c.number = (cutClip c taken).clipNumbered c.number := by
      simp only [State.clipNumbered, State.clipList, follow.records.clips, clips]
    rw [numbered, cut, show c.number = ({ c with closing := some ⟨x, .cutStopped⟩ } : Clip).number from rfl,
      queueTrailers_clipNumbered, clipNumbered_clipClosed records']
    rfl
  · have trailer : makeTrailer (clipClosed c x taken) { c with closing := some ⟨x, .cutStopped⟩ } ⟨x, .cutStopped⟩ st
        = trailerOf s c ⟨x, .cutStopped⟩ st :=
      trailerOf_governor (u := clipClosed c x taken) (s := s) sameGovernor c ⟨x, .cutStopped⟩ st
    rw [entries, cut, queueTrailers_entries, before, trailer]
    exact placeTrailer_last _ last own
  · rw [laterLog, log, cut, queueTrailers_log]
    exact sameLog

end Sys2Proof.Proofs
end

section
/-! SUPPORT. The record of a clip that opens: where it stands in the table, what the committed entries bring to it, and
the clip number that comes next (R87, R95, R99, R103, R104). -/

namespace Sys2Proof.Proofs

open Sys2Proof.Machine Sys2Proof.Laws

/-! ## The first frame and the record -/

theorem firstHeld_eq_head (es : List Entry) : firstHeld es = (es.filter fun e => e.clip == none).head? := by
  rw [firstHeld, List.head?_filter]
  congr 1
  funext e
  cases clip : e.clip <;> simp [Entry.isHeld, clip]

/-- The first frame is R98's. -/
theorem rollFrame_eq (s : State) : rollFrame s = openingFrame s := by
  have on : s.prerollOn = true ↔ 0 < s.queue.depth ∧ s.intake.geometry ≠ none := by
    simp [State.prerollOn, Option.isSome_iff_ne_none]
  unfold rollFrame openingFrame
  rw [firstHeld_eq_head]
  by_cases roll : s.prerollOn = true
  · rw [if_pos roll, if_pos (on.mp roll)]
    cases (s.entries .master).filter fun e => e.clip == none <;> rfl
  · rw [if_neg roll, if_neg (mt on.mpr roll)]

theorem firstIndex_some {α : Type} {p : α → Bool} {l : List α} {k : Nat} {a : α} (here : l[k]? = some a)
    (holds : p a = true) (before : ∀ b ∈ l.take k, p b = false) : firstIndex p l = some k := by
  induction l generalizing k with
  | nil => cases here
  | cons b rest ih =>
    cases k with
    | zero =>
      obtain rfl : b = a := by simpa using here
      simp [firstIndex, holds]
    | succ k =>
      have not : p b = false := before b (by simp)
      have later := ih (by simpa using here) fun d m => before d (by simp [m])
      simp [firstIndex, not, later]

theorem rollCase_opens {k : Nat} {s : State} (may : MayOpen k s) : rollCase s = .opens k := by
  obtain ⟨idle, running, here, before, -, -⟩ := may
  have lowest : firstIndex Option.isNone s.clips.table = some k :=
    firstIndex_some here rfl fun r m => Option.isNone_eq_false_iff.mpr (Option.isSome_iff_ne_none.mpr (before r m))
  simp [rollCase, idle, running, lowest]

/-! ## The record in the table -/

/-- `s` with the clip table `records`. -/
def withTable (records : List (Option Clip)) (s : State) : State :=
  { s with clips := { s.clips with table := records } }

theorem withTable_self {records : List (Option Clip)} {s : State} (h : s.clips.table = records) :
    withTable records s = s := by rw [← h]; rfl

section
variable {records : List (Option Clip)} {k n : Nat} {c : Clip} (inside : k < records.length) (number : c.number = n)
  (others : ∀ d, some d ∈ records → d.number ≠ n)

include number others in
/-- A change of the clip with the new number changes its record alone. -/
theorem changeClip_withTable (f : Clip → Clip) (s : State) : changeClip n f (withTable (records.set k (some c)) s)
    = withTable (records.set k (some (f c))) s := by
  have table : (records.set k (some c)).map (fun r => r.map fun d => if d.number = n then f d else d)
      = records.set k (some (f c)) := by
    rw [List.map_set]
    refine congrArg₂ (fun l r => List.set l k r) ?_ (by simp [number])
    refine (List.map_congr_left fun r m => ?_).trans (List.map_id' records)
    cases r with
    | none => rfl
    | some d => simp [others d m]
  rw [changeClip]
  exact congrArg (fun records => withTable records s) table

include inside number others in
theorem clipNumbered_withTable (s : State) : (withTable (records.set k (some c)) s).clipNumbered n = some c := by
  have mem : some c ∈ records.set k (some c) := List.mem_set inside _
  refine mem_unique_of_find (List.mem_filterMap.mpr ⟨some c, mem, rfl⟩) (by simp [number]) fun d m same => ?_
  obtain ⟨r, member, rfl⟩ := List.mem_filterMap.mp m
  rcases List.mem_or_eq_of_mem_set member with old | new
  · exact absurd (by simpa using same) (others d old)
  · exact Option.some.inj new

include inside number others in
/-- A clip that records has no trailer due when a piece is reported for it (R103, R106). -/
theorem reportPiece_withTable (recording : c.closing = none) (st : Stream) (e : Entry) (s : State) :
    reportPiece n st e (withTable (records.set k (some c)) s)
      = withTable (records.set k (some (pieceReported st e c))) s := by
  have found := clipNumbered_withTable (c := pieceReported st e c) inside number others s
  have early : trailerDue (pieceReported st e c) = none := by simp [trailerDue, pieceReported, recording]
  rw [reportPiece, changeClip_withTable number others, testTrailers, found]
  simp [early]

end

/-- The record of a clip after entries of one stream have been reported for it (R87). -/
def piecesReported (st : Stream) (es : List Entry) (c : Clip) : Clip := es.foldl (fun c e => pieceReported st e c) c

theorem reportPieces_withTable {records : List (Option Clip)} {k n : Nat} {c : Clip} (inside : k < records.length)
    (number : c.number = n) (others : ∀ d, some d ∈ records → d.number ≠ n) (recording : c.closing = none) (st : Stream)
    (es : List Entry) (s : State) : es.foldl (fun t e => reportPiece n st e t) (withTable (records.set k (some c)) s)
      = withTable (records.set k (some (piecesReported st es c))) s := by
  induction es generalizing c with
  | nil => rfl
  | cons e rest ih =>
    rw [List.foldl_cons, reportPiece_withTable inside number others recording]
    exact ih (c := pieceReported st e c) number recording

/-! ## What the entries bring to the record -/

@[simp] theorem Per.set_set {α : Type} (p : Per α) (a b : α) (st : Stream) : (p.set a st).set b st = p.set b st := by
  cases st <;> rfl

@[simp] theorem Per.set_get {α : Type} (p : Per α) (st : Stream) : p.set (p.get st) st = p := by
  cases st <;> rfl

/-- The frame after the last of entries, or `x` where there is none. -/
def reachAfter (x : Frame) (es : List Entry) : Frame :=
  match es.getLast? with
  | none => x
  | some e => e.frame + BitVec.ofNat 32 e.count

theorem reachAfter_cons (x : Frame) (e : Entry) (es : List Entry) :
    reachAfter x (e :: es) = reachAfter (frameAfter e.frame e.count) es := by
  cases es with
  | nil => rfl
  | cons a rest =>
    rw [reachAfter, reachAfter, List.getLast?_cons_cons]
    cases last : (a :: rest).getLast? with
    | none => simp at last
    | some b => rfl

theorem piecesReported_eq (st : Stream) (es : List Entry) (c : Clip) : piecesReported st es c = { c with
    start := c.start.or (es.head?.map Entry.label)
    reach := c.reach.set (reachAfter (c.reach.get st) es) st
    counts := c.counts.set (es.foldl (fun n e => addPiece e n) (c.counts.get st)) st } := by
  induction es generalizing c with
  | nil => simp [piecesReported, reachAfter]
  | cons e rest ih =>
    rw [piecesReported, List.foldl_cons]
    refine (ih _).trans ?_
    rw [reachAfter_cons]
    cases start : c.start <;> simp [pieceReported, start]

theorem piecesReported_number (st : Stream) (es : List Entry) (c : Clip) :
    (piecesReported st es c).number = c.number := by rw [piecesReported_eq]

theorem piecesReported_closing (st : Stream) (es : List Entry) (c : Clip) :
    (piecesReported st es c).closing = c.closing := by rw [piecesReported_eq]

/-- The counts of entries, from none on (R103). -/
def countsOf (es : List Entry) : Counts where
  entries := min es.length (2 ^ 32 - 1)
  repeats := min (es.filter (·.kind == .repeated)).length (2 ^ 32 - 1)
  gaps := min ((es.filter (·.kind == .gap)).map Entry.count).sum (2 ^ 32 - 1)
  oversize := min (es.filter (·.oversize)).length 65535
  unlocked := min (es.filter (·.unlocked)).length (2 ^ 32 - 1)
  oversizePast := (es.filter (·.oversize)).length - 65535

theorem addPiece_countsOf (es : List Entry) (e : Entry) : addPiece e (countsOf es) = countsOf (es ++ [e]) := by
  have kind : ∀ kind, (e.kind == kind) = decide (e.kind = kind) := fun kind => by
    rw [Bool.eq_iff_iff, beq_iff_eq, decide_eq_true_eq]
  simp only [addPiece, countsOf, countUp, countMax, List.filter_append, List.length_append, List.map_append,
    List.sum_append, List.filter_cons, List.filter_nil, kind, Counts.mk.injEq, decide_eq_true_eq]
  refine ⟨?_, ?_, ?_, ?_, ?_, ?_⟩
  · simp only [List.length_singleton]
    omega
  case refine_6 =>
    cases oversize : e.oversize with
    | false => simp
    | true =>
      simp only [if_true, List.length_singleton, true_and]
      split_ifs <;> omega
  all_goals
    split_ifs <;> simp_all
    omega

theorem foldl_addPiece (es : List Entry) : es.foldl (fun n e => addPiece e n) ⟨0, 0, 0, 0, 0, 0⟩ = countsOf es := by
  induction es using List.reverseRecOn with
  | nil => rfl
  | append_singleton es e ih => rw [List.foldl_append, ih]; exact addPiece_countsOf es e

/-! ## The next clip number -/

/-- The numbers held are passed, one after another, as far as the fuel goes (R95). -/
theorem skipHeld_iterate (held : List Nat) (fuel n : Nat) : ∃ j ≤ fuel, skipHeld held fuel n = numberNext^[j] n
    ∧ (∀ i < j, numberNext^[i] n ∈ held) ∧ (j < fuel → numberNext^[j] n ∉ held) := by
  induction fuel generalizing n with
  | zero => exact ⟨0, Nat.le_refl _, rfl, nofun, nofun⟩
  | succ fuel ih =>
    by_cases taken : n ∈ held
    · obtain ⟨j, small, same, passed, free⟩ := ih (numberNext n)
      refine ⟨j + 1, Nat.succ_le_succ small, ?_, fun i lt => ?_, fun lt => free (Nat.lt_of_succ_lt_succ lt)⟩
      · rw [skipHeld, if_pos (by simpa using taken)]
        exact same
      · cases i with
        | zero => exact taken
        | succ i => exact passed i (Nat.lt_of_succ_lt_succ lt)
    · exact ⟨0, Nat.zero_le _, by rw [skipHeld, if_neg (by simpa using taken)]; rfl, nofun, fun _ => taken⟩

/-- A clip number and the four after it are different (R95). -/
theorem numbers_nodup (n : Nat) :
    [n, numberNext n, numberNext^[2] n, numberNext^[3] n, numberNext^[4] n].Nodup := by
  simp only [Function.iterate_succ, Function.iterate_zero, Function.comp_apply, id, List.nodup_cons, List.mem_cons,
    List.not_mem_nil, or_false, not_or, not_false_eq_true, List.nodup_nil, and_true]
  have next : ∀ m, numberNext m = m + 1 ∧ m < 65535 ∨ numberNext m = 1 ∧ 65535 ≤ m := fun m => by
    unfold numberNext
    split <;> omega
  have one := next n
  have two := next (numberNext n)
  have three := next (numberNext (numberNext n))
  have four := next (numberNext (numberNext (numberNext n)))
  omega

/-- Four records at most leave one of the four numbers after the newest clip's free (R95). -/
theorem skipHeld_free {held : List Nat} {n : Nat} (few : held.length ≤ 4) (own : n ∈ held) :
    skipHeld held 4 (numberNext n) ∉ held ∧ ∃ j ∈ List.range 5, skipHeld held 4 (numberNext n) = numberNext^[j + 1] n
      ∧ ∀ i ∈ List.range j, numberNext^[i + 1] n ∈ held := by
  obtain ⟨j, small, same, passed, free⟩ := skipHeld_iterate held 4 (numberNext n)
  have below : j < 4 := by
    refine Nat.lt_of_le_of_ne small fun all => ?_
    have subset : [n, numberNext n, numberNext^[2] n, numberNext^[3] n, numberNext^[4] n] ⊆ held := by
      simp only [List.cons_subset, List.nil_subset, and_true]
      exact ⟨own, passed 0 (by omega), passed 1 (by omega), passed 2 (by omega), passed 3 (by omega)⟩
    have := ((numbers_nodup n).subperm subset).length_le
    simp only [List.length_cons, List.length_nil] at this
    omega
  rw [same]
  exact ⟨free below, j, List.mem_range.mpr (by omega), rfl, fun i m => passed i (List.mem_range.mp m)⟩

end Sys2Proof.Proofs
end

section
/-! SUPPORT. A clip that opens, and what a ROLL that is carried out leaves (R87, R97, R99). -/

namespace Sys2Proof.Proofs

open Sys2Proof.Machine Sys2Proof.Laws

/-! ## The queues when a clip opens -/

theorem agingLine_withEntries (st : Stream) (es : List Entry) (s : State) :
    (withEntries st es s).queue.agingLine = s.queue.agingLine := by
  rw [withEntries, queue_raiseIf]

/-- What a stream's queue holds after it has been committed from frame `first` on to the next clip number (R87). -/
def committed (first : Frame) (s : State) (st : Stream) : List Entry :=
  (s.entries st).filterMap (commitEntry s.rate s.clips.nextNumber first)

theorem committed_clips (first : Frame) (s : State) (st : Stream) : ∀ e ∈ committed first s st, e.clip ≠ none := by
  intro e m held
  have all := List.filter_eq_nil_iff.mp (heldOf_committed s.rate s.clips.nextNumber first (s.entries st)) e m
  exact all (by simp [Entry.isHeld, held])

/-- A clip has its record, both queues are committed and the aging line has moved; nothing is reported yet. -/
def linedUp (k : Nat) (first : Frame) (s : State) : State :=
  setAging (raiseTo first s.queue.agingLine)
    (putQueue .proxy (committed first s .proxy) (putQueue .master (committed first s .master)
      (placeClip k (newClip first s) s)))

section
variable (k : Nat) (first : Frame) (s : State)

theorem linedUp_work : HeldWork (placeClip k (newClip first s) s) (linedUp k first s) :=
  ((putQueue_heldWork .master _ _).trans (putQueue_heldWork .proxy _ _)).trans (setAging_heldWork _ _)

theorem linedUp_eq : linedUp k first s =
    withEntries .proxy (committed first s .proxy) (withEntries .master (committed first s .master)
      (agedTo (raiseTo first s.queue.agingLine)
        (withEntries .proxy (committed first s .proxy) (withEntries .master (committed first s .master)
          (placeClip k (newClip first s) s))))) := by
  rw [linedUp, putQueue_eq, putQueue_eq]
  refine setAging_eq ?_ ?_
  · rw [entries_withEntries_other _ _ (by decide), entries_withEntries]
    exact agedEntries_clips (committed_clips first s .master)
  · rw [entries_withEntries]
    exact agedEntries_clips (committed_clips first s .proxy)

theorem linedUp_entries (st : Stream) : (linedUp k first s).entries st = committed first s st := by
  rw [linedUp_eq]
  cases st with
  | master => rw [entries_withEntries_other _ _ (by decide), entries_withEntries]
  | proxy => rw [entries_withEntries]

theorem linedUp_line : (linedUp k first s).queue.agingLine = raiseTo first s.queue.agingLine := by
  rw [linedUp_eq, agingLine_withEntries, agingLine_withEntries]
  rfl

theorem linedUp_clips : (linedUp k first s).clips = { (placeClip k (newClip first s) s).clips with
    held := s.clips.held.filter fun m => !isBelow m.frame (raiseTo first s.queue.agingLine) } := by
  simp only [linedUp_eq, clips_withEntries, agedTo]
  rfl

end

/-! ## The clip that opens -/

/-- In AUTO the lamp is lit, with no blink (R114). -/
def litUp (s : State) : State :=
  { s with clips := { s.clips with
    lamp := if s.clips.tallyMode = .auto then .lit else s.clips.lamp
    blinkTimer := if s.clips.tallyMode = .auto then none else s.clips.blinkTimer } }

theorem lampOn_eq (s : State) : lampOn s = litUp s := by
  unfold lampOn litUp
  split <;> rfl

/-- The pieces of a stream that the next clip number has when they are committed. -/
def pieces (first : Frame) (s : State) (st : Stream) : List Entry :=
  (committed first s st).filter fun e => e.clip == some s.clips.nextNumber

/-- The marks that move into a clip that opens (R99). -/
def movedMarks (first : Frame) (s : State) : List Mark :=
  s.clips.held.filter fun m => !isBelow m.frame first && !isBelow m.frame (raiseTo first s.queue.agingLine)

/-- The record of a clip that opens when its pieces have been reported (R103, R104). -/
def reportedClip (first : Frame) (s : State) : Clip :=
  piecesReported .proxy (pieces first s .proxy) (piecesReported .master (pieces first s .master) (newClip first s))

/-- The record of a clip when it has opened (R99). -/
def openedClip (first : Frame) (s : State) : Clip :=
  { reportedClip first s with marks := (reportedClip first s).marks ++ movedMarks first s }

theorem reportedClip_number (first : Frame) (s : State) : (reportedClip first s).number = s.clips.nextNumber := by
  rw [reportedClip, piecesReported_number, piecesReported_number]
  rfl

/-- What the reports of both streams leave in the new record (R103, R104). -/
theorem openedClip_eq (first : Frame) (s : State) : openedClip first s = { newClip first s with
    marks := movedMarks first s
    start := ((pieces first s .master ++ pieces first s .proxy).head?.map Entry.label)
    reach := ⟨reachAfter first (pieces first s .master), reachAfter first (pieces first s .proxy)⟩
    counts := ⟨countsOf (pieces first s .master), countsOf (pieces first s .proxy)⟩ } := by
  rw [openedClip, reportedClip, piecesReported_eq, piecesReported_eq, ← foldl_addPiece, ← foldl_addPiece,
    List.head?_append]
  cases (pieces first s .master).head? <;> rfl

theorem mayOpen_inside {k : Nat} {s : State} (may : MayOpen k s) : k < s.clips.table.length := by
  obtain ⟨-, -, free, -, -, -⟩ := may
  exact (List.getElem?_eq_some_iff.mp free).1

theorem mayOpen_others {k : Nat} {s : State} (may : MayOpen k s) :
    ∀ d, some d ∈ s.clips.table → d.number ≠ s.clips.nextNumber := by
  intro d m same
  obtain ⟨-, -, -, -, fresh, -⟩ := may
  exact fresh (List.mem_map.mpr ⟨d, List.mem_filterMap.mpr ⟨some d, m, rfl⟩, same⟩)

/-- The reports of the committed entries reach the new record, and only it (R87). -/
theorem commitFrom_placeClip {k : Nat} {s : State} (may : MayOpen k s) (first : Frame) :
    commitFrom s.clips.nextNumber first (placeClip k (newClip first s) s)
      = withTable (s.clips.table.set k (some (reportedClip first s))) (linedUp k first s) := by
  have inside := mayOpen_inside may
  have others := mayOpen_others may
  have table : (linedUp k first s).clips.table = s.clips.table.set k (some (newClip first s)) := by
    rw [linedUp_clips]
    exact changeAt_const _ _ _
  have entries : ∀ records st, (withTable records (linedUp k first s)).entries st = committed first s st :=
    fun _ => linedUp_entries k first s
  have master : reportCommitted s.clips.nextNumber .master (linedUp k first s) = withTable
      (s.clips.table.set k (some (piecesReported .master (pieces first s .master) (newClip first s))))
      (linedUp k first s) := by
    rw [reportCommitted, linedUp_entries, ← withTable_self table]
    exact reportPieces_withTable inside (c := newClip first s) rfl others rfl .master (pieces first s .master) _
  show reportCommitted _ .proxy (reportCommitted _ .master (linedUp k first s)) = _
  rw [master, reportCommitted, entries]
  exact reportPieces_withTable inside (c := piecesReported .master (pieces first s .master) (newClip first s))
    (piecesReported_number _ _ _) others (by rw [piecesReported_closing]; rfl) .proxy (pieces first s .proxy) _

/-- The committed entries are reported, the held marks move, and the clip's record is the one place of the table that
changes. -/
theorem openClip_eq {k : Nat} {s : State} (may : MayOpen k s) (first : Frame) : openClip k first s =
    litUp (clipEvent .opened s.clips.nextNumber { linedUp k first s with
      clips := { (linedUp k first s).clips with
        table := s.clips.table.set k (some (openedClip first s)), held := [] } }) := by
  have moved : (linedUp k first s).clips.held.filter (fun m => !isBelow m.frame first) = movedMarks first s := by
    rw [linedUp_clips]
    exact List.filter_filter
  have marks : ∀ u, u = withTable (s.clips.table.set k (some (reportedClip first s))) (linedUp k first s) →
      moveMarks s.clips.nextNumber first u = { linedUp k first s with clips := { (linedUp k first s).clips with
        table := s.clips.table.set k (some (openedClip first s)), held := [] } } := by
    rintro u rfl
    rw [moveMarks, changeClip_withTable (reportedClip_number first s) (mayOpen_others may), openedClip, ← moved]
    rfl
  rw [openClip, show (newClip first s).number = s.clips.nextNumber from rfl, marks _ (commitFrom_placeClip may first),
    lampOn_eq]

/-! ## What the opened clip leaves -/

section
variable {k : Nat} {s : State} (may : MayOpen k s) (first : Frame)

include may

theorem openClip_queue : (openClip k first s).queue = (linedUp k first s).queue := by
  rw [openClip_eq may]
  rfl

theorem openClip_clips : (openClip k first s).clips = { (placeClip k (newClip first s) s).clips with
    table := s.clips.table.set k (some (openedClip first s))
    held := []
    lastEvent := some (.opened, s.clips.nextNumber)
    lamp := if s.clips.tallyMode = .auto then .lit else s.clips.lamp
    blinkTimer := if s.clips.tallyMode = .auto then none else s.clips.blinkTimer } := by
  rw [openClip_eq may]
  simp only [litUp, clipEvent, show ∀ n u, (raise n u).clips = u.clips from fun _ _ => rfl, linedUp_clips]
  rfl

theorem openClip_raises : (openClip k first s).isPending .clip = true
    ∧ RaisesOnly [.clip, .high .master, .high .proxy] s (openClip k first s) := by
  have lined : RaisesOnly [.clip, .high .master, .high .proxy] s (linedUp k first s) :=
    raisesOnly_widen (fun _ => List.mem_cons_of_mem _) (linedUp_work k first s).raises
  rw [openClip_eq may]
  refine ⟨?_, raisesOnly_trans lined (raisesOnly_raise (List.mem_cons_self ..) (linedUp k first s))⟩
  show (raise .clip (linedUp k first s)).isPending .clip = true
  simp [isPending_raise]

theorem openClip_log : logOf (openClip k first s) = logOf s := by
  rw [openClip_eq may]
  exact (linedUp_work k first s).log

theorem openClip_aside : asideView (openClip k first s) = asideView s := by
  rw [openClip_eq may]
  exact (congrArg asideView (linedUp_work k first s).besides :)

theorem openClip_entries (st : Stream) : (openClip k first s).entries st = committed first s st := by
  rw [State.entries, openClip_queue may]
  exact linedUp_entries k first s st

end

/-- A clip's number is in the table from its opening on, and the next number is free (R95). -/
theorem nextNumber_free {k : Nat} {s : State} (may : MayOpen k s) (first : Frame) (four : s.clips.table.length = 4) :
    (openClip k first s).clips.nextNumber ∉ (openClip k first s).clipList.map Clip.number
      ∧ ∃ j ∈ List.range 5, (openClip k first s).clips.nextNumber = numberNext^[j + 1] s.clips.nextNumber
        ∧ ∀ i ∈ List.range j,
          numberNext^[i + 1] s.clips.nextNumber ∈ (openClip k first s).clipList.map Clip.number := by
  have numbers : ∀ c : Clip, ((s.clips.table.set k (some c)).filterMap id).map Clip.number
      = ((s.clips.table.map (·.map Clip.number)).set k (some c.number)).filterMap id := fun c => by
    rw [List.map_filterMap, ← Option.map_some, ← List.map_set, List.filterMap_map]
    rfl
  have held : (openClip k first s).clipList.map Clip.number
      = ((s.clips.table.set k (some (newClip first s))).filterMap id).map Clip.number := by
    rw [State.clipList, openClip_clips may, numbers, numbers]
    simp only [openedClip, reportedClip_number]
    rfl
  have next : (openClip k first s).clips.nextNumber = skipHeld ((openClip k first s).clipList.map Clip.number) 4
      (numberNext s.clips.nextNumber) := by
    rw [held, openClip_clips may]
    simp only [placeClip, changeAt_const, List.length_set, four]
    rfl
  rw [next]
  refine skipHeld_free ?_ ?_
  · rw [held, List.length_map]
    exact (List.length_filterMap_le _ _).trans (by rw [List.length_set, four])
  · rw [held]
    exact List.mem_map.mpr ⟨newClip first s, List.mem_filterMap.mpr
      ⟨_, List.mem_set (mayOpen_inside may) _, rfl⟩, rfl⟩

/-- `t` follows `v` at once, but for the walker and the bursts. -/
structure SettledFrom (v t : State) : Prop where
  queue : t.queue = v.queue
  clips : t.clips = v.clips
  aside : asideView t = asideView v
  log : logOf t = logOf v
  lines : t.lines = v.lines
  raises : RaisesOnly followUps v t

theorem settledFrom (v : State) : SettledFrom v (settle v) :=
  have follow := settle_followedBy v
  have view := followedBy_aside follow
  ⟨follow.records.queue, follow.records.clips, view.1, view.2, follow.lines, follow.raises⟩

theorem settledFrom_answered (verdict : Verdict) (detail : Nat) (b : Block) (v : State) :
    SettledFrom v (settle (answered verdict detail b v)) :=
  have settled := settledFrom (answered verdict detail b v)
  ⟨settled.queue, settled.clips, settled.aside, settled.log, settled.lines, settled.raises⟩

theorem walker_settle_answered (verdict : Verdict) (detail : Nat) (b : Block) {v : State} (calm : Calm v) :
    (settle (answered verdict detail b v)).walker = (answered verdict detail b v).walker :=
  (settle_follows _ (calm_answered verdict detail b calm.1 calm.2.1)).walker

/-- What Clip Control leaves when it carries a ROLL out, and what follows at once, is R99's. -/
theorem opens_of_openClip {k : Nat} {s t : State} (may : MayOpen k s)
    (settled : SettledFrom (openClip k (openingFrame s) s) t) : Opens k s t := by
  obtain ⟨queue, clips, aside, log, -, raises⟩ := settled
  have entries : ∀ st, t.entries st = committed (openingFrame s) s st := fun st => by
    rw [← openClip_entries may, State.entries, queue]
    rfl
  have line : t.queue.agingLine = raiseTo (openingFrame s) s.queue.agingLine := by
    rw [queue, openClip_queue may, linedUp_line]
  have list : t.clipList = (openClip k (openingFrame s) s).clipList := by rw [State.clipList, clips]; rfl
  have table : t.clips.table = s.clips.table.set k (some (openedClip (openingFrame s) s)) := by
    rw [clips, openClip_clips may]
  have record : t.clips.table[k]?.join = some (openedClip (openingFrame s) s) := by
    rw [table, List.getElem?_set_self (mayOpen_inside may)]
    rfl
  have aside := keepsAside_of_view (aside.trans (openClip_aside may _))
  obtain ⟨pending, raised⟩ := openClip_raises may (openingFrame s)
  have own : ∀ st, (t.entries st).filter (·.clip == some s.clips.nextNumber) = pieces (openingFrame s) s st :=
    fun st => by rw [entries]; rfl
  refine {
    entries := entries
    line := line
    marks := ?_
    others := fun j other => by rw [table, List.getElem?_set_ne (Ne.symm other)]
    record := by rw [record, openedClip_eq]; rfl
    moved := by rw [record, openedClip_eq]; rfl
    counts := fun st => by rw [record, openedClip_eq, own]; cases st <;> rfl
    reach := fun st => by rw [record, openedClip_eq, own]; cases st <;> rfl
    start := by rw [record, openedClip_eq, List.filter_append, own, own]; rfl
    next := fun four => by rw [clips, list]; exact nextNumber_free may _ four
    clips := ?_
    notices := ⟨(raises .clip).1 pending, ?_⟩
    intake := aside.intake
    coders := aside.coders
    settings := aside.settings
    log := keepsLog_of_eq (log.trans (openClip_log may _))
    shared := aside.shared
    sync := ⟨aside.lines, aside.sync⟩ }
  · rw [queue, openClip_queue may]
    exact (congrArg (·.queue.intakeMarks) (linedUp_work k _ s).besides :)
  · rw [clips, openClip_clips may]
    exact ⟨rfl, rfl, rfl, rfl, rfl, fun auto => if_pos auto, fun other => if_neg other⟩
  · exact raisesOnly_trans (raisesOnly_widen (by decide) raised) (raisesOnly_widen (by decide) raises)

/-! ## ROLL -/

theorem QueueWork.stays {s t : State} (work : QueueWork s t) :
    t.walker = s.walker ∧ t.intake = s.intake ∧ t.lines = s.lines :=
  ⟨(congrArg State.walker work.besides :), (congrArg State.intake work.besides :),
    (congrArg State.lines work.besides :)⟩

theorem openClip_work (k : Nat) (first : Frame) (s : State) :
    QueueWork (placeClip k (newClip first s) s) (openClip k first s) :=
  (((commitFrom_work _ first _).trans (moveMarks_work _ first _)).trans (clipEvent_work _ _ _)).trans (lampOn_work _)

theorem openClip_calm {k : Nat} {s : State} (calm : Calm s) (first : Frame) : Calm (openClip k first s) :=
  (openClip_work k first s).coders.calm calm

theorem roll_directive {b : Block} {s : State} (flies : FliesAs .roll b s) :
    exec (.roll .directive) s = .next (settle (rollDirective s)) := by
  show Host.Outcome.next (takeRoll .directive s) = _
  rw [takeRoll, if_pos (flight_eq flies)]

theorem roll_line {n : LineNo} {s : State} (request : firstRequest n s.lines.requests = some .roll) :
    exec (.roll (.line n)) s = .next (settle (rollLine (dropRequest n s))) := by
  show Host.Outcome.next (takeRoll (.line n) s) = _
  rw [takeRoll, if_pos request]

/-- What a line's request leaves when it is taken is not what a clip that opens looks at. -/
theorem opens_of_dropRequest {k : Nat} {n : LineNo} {s t : State} (opens : Opens k (dropRequest n s) t) :
    Opens k s t where
  entries := opens.entries
  line := opens.line
  marks := opens.marks
  others := opens.others
  record := opens.record
  moved := opens.moved
  counts := opens.counts
  reach := opens.reach
  start := opens.start
  next := opens.next
  clips := opens.clips
  notices := opens.notices
  intake := ⟨opens.intake.intake, opens.intake.slots, opens.intake.inputs⟩
  coders := ⟨opens.coders.master, opens.coders.proxy, opens.coders.governor, opens.coders.freeTag⟩
  settings :=
    let kept := opens.settings
    ⟨kept.pending, kept.mask, kept.freeze, kept.address, kept.watermark, kept.gapTime, kept.retry, kept.high⟩
  log := ⟨opens.log.log, opens.log.later⟩
  shared := opens.shared
  sync := opens.sync

/-- Settles O28: the clip that opens, and then its answer or none. -/
theorem rollOpens : Obligations.RollOpens := by
  intro s k calm may
  refine ⟨fun b flies => ?_, fun n request => ?_⟩
  · obtain ⟨walker, intake, lines⟩ := (openClip_work k (openingFrame s) s).stays
    have acts : rollDirective s = answered .done s.clips.nextNumber b (openClip k (openingFrame s) s) := by
      rw [rollDirective, rollCase_opens may, rollFrame_eq]
      exact complete_eq _ _ (by rw [walker]; exact flies.1)
    have settled := settledFrom_answered .done s.clips.nextNumber b (openClip k (openingFrame s) s)
    refine ⟨_, by rw [roll_directive flies, acts], opens_of_openClip may settled, ?_, ?_⟩
    · rw [settled.lines, lines]
      rfl
    · rw [walker_settle_answered _ _ _ (openClip_calm calm _)]
      simp only [answered, walker, intake]
      rfl
  · obtain ⟨walker, -, lines⟩ := (openClip_work k (openingFrame s) (dropRequest n s)).stays
    have may' : MayOpen k (dropRequest n s) := may
    have acts : rollLine (dropRequest n s) = openClip k (openingFrame s) (dropRequest n s) := by
      rw [rollLine, rollCase_opens may', rollFrame_eq]
      rfl
    have settled := settledFrom (openClip k (openingFrame s) (dropRequest n s))
    refine ⟨_, by rw [roll_line request, acts], opens_of_dropRequest (opens_of_openClip may' settled), ?_, ?_⟩
    · rw [(settle_follows _ (openClip_calm (s := dropRequest n s) calm _)).walker, walker]
      rfl
    · rw [settled.lines, lines]
      rfl

end Sys2Proof.Proofs
end

section
/-! SUPPORT. What a break takes out of the queues and the clip's counts (R86, R105). -/

namespace Sys2Proof.Proofs

open Sys2Proof.Machine Sys2Proof.Laws

/-! ## What goes -/

/-- The entries that a break at `x` removes or cuts. -/
def goneAt (x : Frame) (es : List Entry) : List Entry := es.filter fun e => !isBelow (frameAfter e.frame e.count - 1) x

/-- The entries that a break at `x` removes. -/
def removedAt (x : Frame) (es : List Entry) : List Entry := (goneAt x es).filter fun e => !isBelow e.frame x

/-- The GAP entries that a break at `x` cuts. -/
def cutAt (x : Frame) (es : List Entry) : List Entry := (goneAt x es).filter fun e => isBelow e.frame x

/-- What a break at `x` leaves of a queue that holds only the clip's entries. -/
def keptAt (x : Frame) (es : List Entry) : List Entry :=
  es.filterMap fun e =>
    if isBelow (frameAfter e.frame e.count - 1) x then some e
    else if isBelow e.frame x then some { e with count := (x - e.frame).toNat }
    else none

/-- The counts without what entries removed and entries cut at `x` had added to them (R105). -/
def countsWithout (x : Frame) (removed cut : List Entry) (n : Counts) : Counts where
  entries := n.entries - removed.length
  repeats := n.repeats - (removed.filter (·.kind == .repeated)).length
  gaps := n.gaps - ((removed.filter (·.kind == .gap)).map Entry.count).sum
    - (cut.map fun e => e.count - (x - e.frame).toNat).sum
  oversize := n.oversize - ((removed.filter (·.oversize)).length - n.oversizePast)
  unlocked := n.unlocked - (removed.filter (·.unlocked)).length
  oversizePast := n.oversizePast - (removed.filter (·.oversize)).length

theorem countsWithout_cut (x : Frame) (removed cut : List Entry) (e : Entry) (n : Counts) :
    countsWithout x removed (e :: cut) n
      = countsWithout x removed cut { n with gaps := n.gaps - (e.count - (x - e.frame).toNat) } := by
  simp only [countsWithout, List.map_cons, List.sum_cons, Counts.mk.injEq, true_and, and_true]
  omega

theorem countsWithout_removed (x : Frame) (removed cut : List Entry) (e : Entry) (n : Counts) :
    countsWithout x (e :: removed) cut n = countsWithout x removed cut (takeBackPiece e n) := by
  have kind : ∀ kind, (e.kind == kind) = decide (e.kind = kind) := fun kind => by
    rw [Bool.eq_iff_iff, beq_iff_eq, decide_eq_true_eq]
  simp only [countsWithout, takeBackPiece, List.filter_cons, kind, decide_eq_true_eq, List.length_cons, Counts.mk.injEq]
  refine ⟨by omega, ?_, ?_, ?_, ?_, ?_⟩
  case refine_3 =>
    cases oversize : e.oversize with
    | false => simp
    | true =>
      simp only [if_true, List.length_cons, true_and]
      split_ifs <;> omega
  all_goals
    split_ifs
    · simp only [List.length_cons, List.map_cons, List.sum_cons]
      omega
    · rfl

section
variable {number : Nat} {x : Frame} {e : Entry} {es : List Entry}

/-- An entry that lies below the break stays, whoever's it is. -/
theorem brokenEntry_below (below : e.allBelow x = true) : brokenEntry number x e = some e := by
  simp [brokenEntry, below]

theorem takeBack_below (n : Counts) (below : e.allBelow x = true) : takeBack number x n e = n := by
  simp [takeBack, below]

theorem newestBroken_below (newest : Frame) (below : e.allBelow x = true) : newestBroken number x newest e = newest := by
  simp [newestBroken, below]

theorem filterMap_brokenEntry_below (below : ∀ e ∈ es, e.allBelow x = true) : es.filterMap (brokenEntry number x) = es :=
  (List.filterMap_congr fun e m => brokenEntry_below (below e m)).trans List.filterMap_some

theorem foldl_takeBack_below (n : Counts) (below : ∀ e ∈ es, e.allBelow x = true) :
    es.foldl (takeBack number x) n = n := by
  induction es with
  | nil => rfl
  | cons e rest ih =>
    rw [List.foldl_cons, takeBack_below n (below e (List.mem_cons_self ..))]
    exact ih fun d m => below d (List.mem_cons_of_mem _ m)

theorem foldl_newestBroken_below (newest : Frame) (below : ∀ e ∈ es, e.allBelow x = true) :
    es.foldl (newestBroken number x) newest = newest := by
  induction es with
  | nil => rfl
  | cons e rest ih =>
    rw [List.foldl_cons, newestBroken_below newest (below e (List.mem_cons_self ..))]
    exact ih fun d m => below d (List.mem_cons_of_mem _ m)

theorem filterMap_brokenEntry (own : ∀ e ∈ es, brokenClips number e = true) :
    es.filterMap (brokenEntry number x) = keptAt x es :=
  List.filterMap_congr fun e m => by
    simp only [brokenEntry, own e m, Bool.not_true, Bool.false_or]
    rfl

theorem foldl_newestBroken (newest : Frame) (own : ∀ e ∈ es, brokenClips number e = true) :
    es.foldl (newestBroken number x) newest
      = (goneAt x es).foldl (fun newest e => raiseTo (frameAfter e.frame e.count - 1) newest) newest := by
  rw [goneAt, List.foldl_filter]
  refine List.foldl_ext _ _ _ fun newest e m => ?_
  simp only [newestBroken, own e m, Bool.not_true, Bool.false_or]
  by_cases below : e.allBelow x = true
  · rw [if_pos below, if_neg (by simpa [Entry.allBelow, Entry.last, lastFrame] using below)]
  · rw [if_neg below, if_pos (by simpa [Entry.allBelow, Entry.last, lastFrame] using below)]
    rfl

theorem foldl_takeBack (own : ∀ e ∈ es, brokenClips number e = true) (n : Counts) :
    es.foldl (takeBack number x) n = countsWithout x (removedAt x es) (cutAt x es) n := by
  induction es generalizing n with
  | nil => simp [removedAt, cutAt, goneAt, countsWithout]
  | cons e rest ih =>
    rw [List.foldl_cons, ih fun d m => own d (List.mem_cons_of_mem _ m)]
    have mine := own e (List.mem_cons_self ..)
    by_cases below : e.allBelow x = true
    · have stays : goneAt x (e :: rest) = goneAt x rest :=
        List.filter_cons_of_neg (by simpa [Entry.allBelow, Entry.last, lastFrame] using below)
      rw [takeBack_below n below, removedAt, removedAt, cutAt, cutAt, stays]
    · have goes : goneAt x (e :: rest) = e :: goneAt x rest :=
        List.filter_cons_of_pos (by simpa [Entry.allBelow, Entry.last, lastFrame] using below)
      by_cases reaches : isBelow e.frame x = true
      · have removed : removedAt x (e :: rest) = removedAt x rest := by
          rw [removedAt, goes, List.filter_cons_of_neg (by simp [reaches]), removedAt]
        have cut : cutAt x (e :: rest) = e :: cutAt x rest := by
          rw [cutAt, goes, List.filter_cons_of_pos (by exact reaches), cutAt]
        rw [removed, cut, countsWithout_cut]
        simp only [takeBack, mine, below, reaches]
        rfl
      · have removed : removedAt x (e :: rest) = e :: removedAt x rest := by
          rw [removedAt, goes, List.filter_cons_of_pos (by simp [reaches]), removedAt]
        have cut : cutAt x (e :: rest) = cutAt x rest := by
          rw [cutAt, goes, List.filter_cons_of_neg (by exact reaches), cutAt]
        rw [removed, cut, countsWithout_removed]
        simp only [takeBack, mine, below, reaches]
        rfl

end

end Sys2Proof.Proofs
end

section
/-! SUPPORT. The break of the recording clip by a master picture without room (R82, R86, R105), and where the coder
stands then (R27). -/

namespace Sys2Proof.Proofs

open Sys2Proof.Machine Sys2Proof.Laws

/-! ## The break, before the trailers -/

/-- Committed entries stay when the aging line moves (R80). -/
theorem setAging_clips {x : Frame} {s : State} (clips : ∀ st, ∀ e ∈ s.entries st, e.clip ≠ none) :
    setAging x s = withEntries .proxy (s.entries .proxy) (withEntries .master (s.entries .master) (agedTo x s)) :=
  setAging_eq (agedEntries_clips (clips .master)) (agedEntries_clips (clips .proxy))

theorem brokenEntry_clip {number : Nat} {x : Frame} {e k : Entry} (stays : brokenEntry number x e = some k) :
    k.clip = e.clip := by
  unfold brokenEntry at stays
  split_ifs at stays <;> cases stays <;> rfl

/-- What a break at the frame of `e` leaves of a stream's queue (R86). -/
def leftOf (c : Clip) (e : Entry) (u : State) (st : Stream) : List Entry :=
  (u.entries st).filterMap (brokenEntry c.number e.frame)

theorem leftOf_clips {c : Clip} {e : Entry} {u : State} (clips : ∀ st, ∀ y ∈ u.entries st, y.clip ≠ none) (st : Stream) :
    ∀ k ∈ leftOf c e u st, k.clip ≠ none := fun k m => by
  obtain ⟨y, member, stays⟩ := List.mem_filterMap.mp m
  rw [brokenEntry_clip stays]
  exact clips st y member

/-- The fault of a break (R105). -/
def breakFault (e : Entry) : FaultReport := ⟨.queueFull, .clipControl, none, some e.frame, some e.stream⟩

/-- The record of `c` when it has broken at the frame of `e` (R105). -/
def recordBroken (c : Clip) (index : Bool) (e : Entry) (u : State) : Clip :=
  brokenRecord u e.frame (breakReason index e.stream) c

/-- The clip `c` has its record and the queues have lost what lies at or above the break. -/
def breakTaken (c : Clip) (index : Bool) (e : Entry) (u : State) : State :=
  putQueue .proxy (leftOf c e u .proxy) (putQueue .master (leftOf c e u .master) (withClip (recordBroken c index e u) u))

/-- The break of `c` is reported. -/
def breakTold (c : Clip) (index : Bool) (e : Entry) (u : State) : State :=
  darkened (clipEvent .broken c.number (reportFault (breakFault e) (raiseFloor e.frame (breakTaken c index e u))))

/-- The aging line after the break (R86). -/
def breakLine (c : Clip) (e : Entry) (u : State) : Frame :=
  (u.entries .proxy).foldl (newestBroken c.number e.frame)
    ((u.entries .master).foldl (newestBroken c.number e.frame) e.last) + 1

/-- The break of `c`, before its trailers. -/
def breakDone (c : Clip) (index : Bool) (e : Entry) (u : State) : State :=
  setAging (raiseTo (breakLine c e u) u.queue.agingLine) (breakTold c index e u)

section
variable (c : Clip) (index : Bool) (e : Entry) (u : State)

theorem breakTaken_eq : breakTaken c index e u = withEntries .proxy (leftOf c e u .proxy)
    (withEntries .master (leftOf c e u .master) (withClip (recordBroken c index e u) u)) := by
  rw [breakTaken, putQueue_eq, putQueue_eq]

theorem breakTaken_entries (st : Stream) : (breakTaken c index e u).entries st = leftOf c e u st := by
  rw [breakTaken_eq]
  cases st with
  | master => rw [entries_withEntries_other _ _ (by decide), entries_withEntries]
  | proxy => rw [entries_withEntries]

theorem breakTaken_raises : RaisesOnly [.high .master, .high .proxy] u (breakTaken c index e u) :=
  raisesOnly_trans (t := withClip (recordBroken c index e u) u) (raisesOnly_of_pending rfl)
    ((putQueue_heldWork .master _ _).trans (putQueue_heldWork .proxy _ _)).raises

theorem breakTaken_line : (breakTaken c index e u).queue.agingLine = u.queue.agingLine := by
  rw [breakTaken_eq, agingLine_withEntries, agingLine_withEntries]
  rfl

/-- The break of a clip that is RECORDING (R105). -/
theorem breakClip_eq {c : Clip} {u : State} (records : Records c u) :
    breakClip c.number index e u = testTrailers c.number (breakDone c index e u) := by
  have record : changeClip c.number (brokenRecord u e.frame (breakReason index e.stream)) u
      = withClip (recordBroken c index e u) u := changeClip_records records _ rfl
  have told : breakReported c.number e.frame e.stream true (breakTaken c index e u) = breakTold c index e u := by
    rw [breakReported, if_pos rfl, lampOut_eq]
    rfl
  have line : (breakTold c index e u).queue.agingLine = u.queue.agingLine := breakTaken_line c index e u
  rw [breakClip, recording_records records]
  dsimp only
  rw [show ((some c).map Clip.number == some c.number) = true by simp, record]
  change testTrailers c.number (setAging (raiseTo (breakLine c e u)
    (breakReported c.number e.frame e.stream true (breakTaken c index e u)).queue.agingLine)
    (breakReported c.number e.frame e.stream true (breakTaken c index e u))) = _
  rw [told, line, breakDone]

/-! ## What the break leaves -/

theorem breakTold_entries (st : Stream) : (breakTold c index e u).entries st = leftOf c e u st := by
  have same : ∀ v : State, (darkened (clipEvent .broken c.number (reportFault (breakFault e)
      (raiseFloor e.frame v)))).entries st = v.entries st := fun _ => rfl
  rw [breakTold, same, breakTaken_entries]

theorem breakTold_governor : (breakTold c index e u).governor = u.governor := by
  have same : ∀ v : State, (darkened (clipEvent .broken c.number (reportFault (breakFault e)
      (raiseFloor e.frame v)))).governor = v.governor := fun _ => rfl
  have taken : HeldWork (withClip (recordBroken c index e u) u) (breakTaken c index e u) :=
    (putQueue_heldWork .master _ _).trans (putQueue_heldWork .proxy _ _)
  rw [breakTold, same]
  exact (congrArg State.governor taken.besides :)

theorem breakTold_raises : (breakTold c index e u).isPending .clip = true ∧ (breakTold c index e u).isPending .fault = true
    ∧ RaisesOnly [.clip, .fault, .high .master, .high .proxy] u (breakTold c index e u) := by
  have taken : RaisesOnly [.clip, .fault, .high .master, .high .proxy] u (breakTaken c index e u) :=
    raisesOnly_widen (by decide) (breakTaken_raises c index e u)
  generalize both : reportFault (breakFault e) (raiseFloor e.frame (breakTaken c index e u)) = faulted
  have fault : ∀ n, faulted.isPending n = ((breakTaken c index e u).isPending n || decide (n = .fault)) := fun n => by
    rw [← both]
    exact isPending_reportFault n (breakFault e) (raiseFloor e.frame (breakTaken c index e u))
  have told : ∀ n, (breakTold c index e u).isPending n = (faulted.isPending n || decide (n = .clip)) := fun n => by
    rw [breakTold, both]
    exact isPending_raise n .clip faulted
  refine ⟨by simp [told], by simp [told, fault], fun n => ⟨fun pending => ?_, fun pending => ?_⟩⟩
  · simp [told, fault, (taken n).1 pending]
  · rw [told, fault, Bool.or_eq_true, Bool.or_eq_true, decide_eq_true_eq, decide_eq_true_eq] at pending
    rcases pending with (before | rfl) | rfl
    · exact (taken n).2 before
    · exact .inr (by simp)
    · exact .inr (by simp)

theorem breakTold_log (quiet : u.isPending .fault = false) :
    (breakTold c index e u).notices.log = some (breakFault e) := by
  have still : (raiseFloor e.frame (breakTaken c index e u)).isPending .fault = false := by
    by_contra pending
    rcases ((breakTaken_raises c index e u) .fault).2 (Bool.not_eq_false _ ▸ pending) with before | high
    · rw [quiet] at before
      cases before
    · simp at high
  obtain ⟨-, -, -, captured, -⟩ := logFault_eq (breakFault e) (raiseFloor e.frame (breakTaken c index e u))
  exact (captured still).1

theorem breakTold_clips : (breakTold c index e u).clips = { (withClip (recordBroken c index e u) u).clips with
    rollFloor := raiseTo e.frame u.clips.rollFloor
    lastEvent := some (.broken, c.number)
    lamp := if u.clips.tallyMode = .auto then .dark else u.clips.lamp
    blinkTimer := if u.clips.tallyMode = .auto then none else u.clips.blinkTimer } := by
  have taken : (breakTaken c index e u).clips = (withClip (recordBroken c index e u) u).clips := by
    rw [breakTaken_eq, clips_withEntries, clips_withEntries]
  simp only [breakTold, darkened, clipEvent, reportFault, raiseFloor, taken,
    show ∀ n v, (raise n v).clips = v.clips from fun _ _ => rfl]
  rfl

end

section
variable {c : Clip} {index : Bool} {e : Entry} {u : State} (clips : ∀ st, ∀ y ∈ u.entries st, y.clip ≠ none)

include clips

theorem breakDone_eq : breakDone c index e u = withEntries .proxy (leftOf c e u .proxy)
    (withEntries .master (leftOf c e u .master)
      (agedTo (raiseTo (breakLine c e u) u.queue.agingLine) (breakTold c index e u))) := by
  have entries : ∀ st, (breakTold c index e u).entries st = leftOf c e u st := breakTold_entries c index e u
  have stay : ∀ st, ∀ y ∈ (breakTold c index e u).entries st, y.clip ≠ none := fun st => by
    rw [entries]
    exact leftOf_clips clips st
  rw [breakDone, setAging_clips stay, entries .master, entries .proxy]

theorem breakDone_entries (st : Stream) : (breakDone c index e u).entries st = leftOf c e u st := by
  rw [breakDone_eq clips]
  cases st with
  | master => rw [entries_withEntries_other _ _ (by decide), entries_withEntries]
  | proxy => rw [entries_withEntries]

theorem breakDone_line : (breakDone c index e u).queue.agingLine = raiseTo (breakLine c e u) u.queue.agingLine := by
  rw [breakDone_eq clips]
  generalize raiseTo (breakLine c e u) u.queue.agingLine = x
  exact (agingLine_withEntries _ _ _).trans (agingLine_withEntries _ _ _)

theorem breakDone_clips : (breakDone c index e u).clips = { (breakTold c index e u).clips with
    held := (breakTold c index e u).clips.held.filter fun m =>
      !isBelow m.frame (raiseTo (breakLine c e u) u.queue.agingLine) } := by
  rw [breakDone_eq clips, clips_withEntries, clips_withEntries]
  rfl

end

/-! ## What the break is seen by -/

/-- `b` comes from `u` by the break of `c` at the frame of `e`, as Clip Control, the notices and the aging line show
it (R86, R105). -/
structure ShowsBreak (allowed : List Notice) (c : Clip) (e : Entry) (u b : State) : Prop where
  event : b.clips.lastEvent = some (.broken, c.number)
  floor : b.clips.rollFloor = raiseTo e.frame u.clips.rollFloor
  lamp : b.clips.lamp = if u.clips.tallyMode = .auto then .dark else u.clips.lamp
  line : b.queue.agingLine = raiseTo (breakLine c e u) u.queue.agingLine
  clip : b.isPending .clip = true
  fault : b.isPending .fault = true
  raises : RaisesOnly allowed u b
  log : u.isPending .fault = false → b.notices.log = some (breakFault e)

/-- The notices of a break itself. -/
def breakNotices : List Notice := [.clip, .fault, .high .master, .high .proxy]

theorem breakDone_shows {c : Clip} {e : Entry} {u : State} (index : Bool)
    (clips : ∀ st, ∀ y ∈ u.entries st, y.clip ≠ none) : ShowsBreak breakNotices c e u (breakDone c index e u) := by
  obtain ⟨clip, fault, raises⟩ := breakTold_raises c index e u
  have aged : HeldWork (breakTold c index e u) (breakDone c index e u) := setAging_heldWork _ _
  have controls := breakDone_clips (c := c) (index := index) (e := e) clips
  rw [breakTold_clips] at controls
  refine ⟨?_, ?_, ?_, breakDone_line clips, (aged.raises _).1 clip, (aged.raises _).1 fault,
    raisesOnly_trans raises (raisesOnly_widen (by decide) aged.raises),
    fun quiet => (keepsLog_of_eq aged.log).log.trans (breakTold_log c index e u quiet)⟩ <;> rw [controls]

/-- The trailers that follow a break show nothing of it. -/
theorem ShowsBreak.trailers {c : Clip} {e : Entry} {u b : State} (shows : ShowsBreak breakNotices c e u b) (d : Clip)
    (master proxy : List Entry) :
    ShowsBreak breakNotices c e u (withEntries .proxy proxy (withEntries .master master (withClip d b))) := by
  have put : HeldWork (withClip d b) (withEntries .proxy proxy (withEntries .master master (withClip d b))) := by
    rw [← putQueue_eq, ← putQueue_eq]
    exact (putQueue_heldWork .master _ _).trans (putQueue_heldWork .proxy _ _)
  obtain ⟨event, floor, lamp, line, clip, fault, raises, log⟩ := shows
  refine ⟨?_, ?_, ?_, ?_, (put.raises _).1 clip, (put.raises _).1 fault,
    raisesOnly_trans (t := withClip d b) raises (raisesOnly_widen (by decide) put.raises),
    fun quiet => (keepsLog_of_eq put.log).log.trans (log quiet)⟩
  · rw [clips_withEntries, clips_withEntries]
    exact event
  · rw [clips_withEntries, clips_withEntries]
    exact floor
  · rw [clips_withEntries, clips_withEntries]
    exact lamp
  · rw [agingLine_withEntries, agingLine_withEntries]
    exact line

/-! ## The coder -/

/-- The Master Coder is IDLE, and has released its slot. -/
def coderIdle (slot : Nat) (u : State) : State :=
  { releaseSlot slot u with master := { u.master with picture := none } }

/-- The entry of the master picture `p` at a payload of `n` bytes with no cap exceeded (R27). -/
def pictureEntry (p : MasterPicture) (n : Nat) (s : State) : Entry :=
  codedEntry .master p.item (n + 32) p.step p.attempt false s.freeTag

theorem attemptEnd_joins {s : State} {p : MasterPicture} {n : Nat} (picture : s.master.picture = some p) (low : 1 ≤ n)
    (high : n ≤ p.width * p.height * 3) (cap : p.settings.cap = 0) (empty : s.inputs.master = []) :
    exec (.attemptEnd n) s = .next (settle (coderIdle p.item.slot (join (pictureEntry p n s) (nextTag s)))) := by
  have size : masterSize p n = n + 32 := by rw [masterSize, clamp_within low high]
  have exceeds : exceedsCap p (n + 32) = false := by simp [exceedsCap, cap]
  have inputs : (join (pictureEntry p n s) (nextTag s)).inputs.master = [] :=
    (congrArg Per.master (join_work _ _).inputs).trans empty
  have ended : endAttempt n s = completeMaster p (n + 32) s.freeTag (nextTag s) := by
    simp [endAttempt, picture, size, exceeds]
  have done : completeMaster p (n + 32) s.freeTag (nextTag s)
      = coderIdle p.item.slot (join (pictureEntry p n s) (nextTag s)) := by
    rw [completeMaster, exceeds]
    exact runMaster_empty _ inputs
  rw [← done, ← ended]
  rfl

/-- A committed master picture without room and without held entries breaks its clip (R82, R85, R86). -/
theorem join_breaks {c : Clip} {e : Entry} {s : State} (master : e.stream = .master) (one : e.count = 1)
    (takes : TakesFrame c e.frame s) (crowded : ¬ HasRoom .master e.size s)
    (clips : ∀ st, ∀ y ∈ s.entries st, y.clip ≠ none) :
    join e s = breakClip c.number (indexFull (s.entries .master)) e (markIntake e s) := by
  rw [join_single one (classify_takes takes), settlePiece, settleCommitted, makeRoom_none (s := markIntake e s) e clips,
    master, if_neg (by rw [fits_iff]; exact crowded), replaceOrBreak, if_neg (by simp [master])]
  rfl

theorem takesFrame_alone {c : Clip} {x : Frame} {s : State} (alone : s.clipList = [c]) (recording : c.closing = none)
    (above : isBelow x c.first = false) : TakesFrame c x s := by
  refine ⟨⟨by simp [alone], recording, fun d m _ => by simpa [alone] using m⟩, above, fun d m other => ?_⟩
  exact absurd (by simpa [alone] using m) other

/-- What stands aside from the break is as it was, but for the picture. -/
theorem coderIdle_stays {slot : Nat} {e : Entry} {s b t : State} (work : QueueWork (markIntake e (nextTag s)) b)
    (settled : SettledFrom (coderIdle slot b) t) :
    t.master = { s.master with picture := none } ∧ t.intake = s.intake ∧ t.proxy = s.proxy ∧ t.governor = s.governor
      ∧ t.lines = s.lines ∧ KeepsSettings s t ∧ t.shared = s.shared := by
  have after := keepsAside_of_view settled.aside
  have before := keepsAside_of_view work.aside
  refine ⟨after.coders.master.trans ?_, after.intake.intake.trans before.intake.intake,
    after.coders.proxy.trans before.coders.proxy, after.coders.governor.trans before.coders.governor,
    settled.lines.trans work.stays.2.2, ?_, after.shared.trans before.shared⟩
  · exact congrArg (fun m : MasterCoder => { m with picture := none }) before.coders.master
  · have kept := after.settings
    have first := before.settings
    exact ⟨kept.pending.trans first.pending, kept.mask.trans first.mask, kept.freeze.trans first.freeze,
      kept.address.trans first.address, kept.watermark.trans first.watermark, kept.gapTime.trans first.gapTime,
      kept.retry.trans first.retry, kept.high.trans first.high⟩

/-- What follows a break at once shows it still. -/
theorem ShowsBreak.settles {slot : Nat} {c : Clip} {e : Entry} {u b t : State} (shows : ShowsBreak breakNotices c e u b)
    (settled : SettledFrom (coderIdle slot b) t) : ShowsBreak (breakNotices ++ followUps) c e u t := by
  obtain ⟨event, floor, lamp, line, clip, fault, raises, log⟩ := shows
  obtain ⟨queue, clips, -, logged, -, follows⟩ := settled
  refine ⟨?_, ?_, ?_, ?_, (follows _).1 clip, (follows _).1 fault, ?_,
    fun quiet => (keepsLog_of_eq logged).log.trans (log quiet)⟩
  · rw [clips]
    exact event
  · rw [clips]
    exact floor
  · rw [clips]
    exact lamp
  · rw [queue]
    exact line
  · exact raisesOnly_trans (t := coderIdle slot b) (raisesOnly_widen (fun _ => List.mem_append_left _) raises)
      (raisesOnly_widen (fun _ => List.mem_append_right _) follows)

end Sys2Proof.Proofs
end

section
/-! SUPPORT. A full master queue breaks its clip, with and without trailers (R82, R86, R105 to R107). -/

namespace Sys2Proof.Proofs

open Sys2Proof.Machine Sys2Proof.Laws

/-! ## The trailers of a break -/

theorem breakDone_clipList {c : Clip} {index : Bool} {e : Entry} {u : State}
    (clips : ∀ st, ∀ y ∈ u.entries st, y.clip ≠ none) :
    (breakDone c index e u).clipList = (withClip (recordBroken c index e u) u).clipList := by
  rw [State.clipList, breakDone_clips clips, breakTold_clips]
  rfl

theorem breakReason_master (es : List Entry) : breakReason (indexFull es) .master
    = if 8188 < es.length + 1 then .brokenIndexFull else .brokenMasterFull := by
  simp [breakReason, indexFull]

theorem isBelow_asymm {g x : Frame} (below : isBelow g x = true) : isBelow x g = false := by
  rw [← Bool.not_eq_true]
  intro above
  rw [isBelow_iff] at below above
  bv_omega

/-- While the proxy stream has not come to the break, no trailer is due (R106). -/
theorem breakClip_waits {c : Clip} {e : Entry} {u : State} (index : Bool) (records : Records c u)
    (clips : ∀ st, ∀ y ∈ u.entries st, y.clip ≠ none) (short : isBelow c.reach.proxy e.frame = true) :
    breakClip c.number index e u = breakDone c index e u
      ∧ (breakDone c index e u).clipNumbered c.number = some (recordBroken c index e u) := by
  have found : (breakDone c index e u).clipNumbered c.number = some (recordBroken c index e u) := by
    rw [State.clipNumbered, breakDone_clipList clips]
    exact clipNumbered_withClip records.1 rfl
  have reach : (recordBroken c index e u).reach.proxy = c.reach.proxy := by
    show (if isBelow e.frame c.reach.proxy then e.frame else c.reach.proxy) = _
    rw [isBelow_asymm short]
    rfl
  have early : trailerDue (recordBroken c index e u) = none := by
    refine Option.filter_eq_none_iff.mpr fun k closing due => ?_
    obtain rfl : k = ⟨e.frame - 1, breakReason index e.stream⟩ := (Option.some.inj closing).symm
    simp only [Bool.and_eq_true, beq_iff_eq, reach, BitVec.sub_add_cancel] at due
    rw [due.2, isBelow_self] at short
    cases short
  refine ⟨?_, found⟩
  rw [breakClip_eq index e records, testTrailers, found]
  simp [early]

/-- The record of a clip that both streams have come to the break of, and whose trailers are queued (R105, R106). -/
def recordClosed (c : Clip) (index : Bool) (e : Entry) (u : State) : Clip :=
  { recordBroken c index e u with queued := ⟨true, true⟩ }

/-- Where the proxy stream has gone further than the break, both trailers are due at once (R106). -/
theorem trailerDue_recordBroken {c : Clip} {e : Entry} {u : State} (index : Bool) (master : c.reach.master = e.frame)
    (further : isBelow e.frame c.reach.proxy = true) (queued : c.queued = ⟨false, false⟩) :
    (recordBroken c index e u).reach = ⟨e.frame, e.frame⟩
      ∧ trailerDue (recordBroken c index e u) = some ⟨e.frame - 1, breakReason index e.stream⟩ := by
  have reach : (recordBroken c index e u).reach = ⟨e.frame, e.frame⟩ := by
    show (⟨if isBelow e.frame c.reach.master then e.frame else c.reach.master,
      if isBelow e.frame c.reach.proxy then e.frame else c.reach.proxy⟩ : Per Frame) = _
    rw [master, isBelow_self, further]
    rfl
  refine ⟨reach, ?_⟩
  rw [trailerDue, reach]
  simp [recordBroken, brokenRecord, queued]

/-- A break that the proxy stream has passed queues both trailers behind what stays (R86, R106, R107). -/
theorem breakClip_trails {c : Clip} {e : Entry} {u : State} (index : Bool) (alone : u.clipList = [c])
    (recording : c.closing = none) (own : ∀ st, ∀ y ∈ u.entries st, y.clip = some c.number)
    (master : c.reach.master = e.frame) (further : isBelow e.frame c.reach.proxy = true)
    (queued : c.queued = ⟨false, false⟩) : ∃ trailer : Stream → Entry,
      (∀ st, trailer st
        = trailerOf u (recordClosed c index e u) ⟨e.frame - 1, breakReason index e.stream⟩ st) ∧
      breakClip c.number index e u = withEntries .proxy (leftOf c e u .proxy ++ [trailer .proxy])
        (withEntries .master (leftOf c e u .master ++ [trailer .master])
          (withClip (recordClosed c index e u) (breakDone c index e u))) ∧
      (withClip (recordClosed c index e u) (breakDone c index e u)).clipList = [recordClosed c index e u] := by
  have records : Records c u := ⟨by simp [alone], recording, fun d m _ => by simpa [alone] using m⟩
  have clips : ∀ st, ∀ y ∈ u.entries st, y.clip ≠ none := fun st y m => by simp [own st y m]
  have only : (breakDone c index e u).clipList = [recordBroken c index e u] := by
    rw [breakDone_clipList clips, clipList_withClip, alone]
    simp [recordBroken, brokenRecord]
  have theirs : ∀ st, ∀ y ∈ (breakDone c index e u).entries st, y.clip = some (recordBroken c index e u).number := by
    intro st k m
    rw [breakDone_entries clips] at m
    obtain ⟨y, member, stays⟩ := List.mem_filterMap.mp m
    rw [brokenEntry_clip stays]
    exact own st y member
  have due := (trailerDue_recordBroken (u := u) index master further queued).2
  have trails := testTrailers_due only due theirs
  have books : (breakDone c index e u).governor = u.governor := by
    have aged : (breakDone c index e u).governor = (breakTold c index e u).governor :=
      (congrArg State.governor (setAging_work _ _).besides :)
    exact aged.trans (breakTold_governor c index e u)
  refine ⟨fun st => trailerOf (breakDone c index e u) (recordBroken c index e u)
    ⟨e.frame - 1, breakReason index e.stream⟩ st, fun st => trailerOf_governor books _ _ _, ?_, ?_⟩
  · rw [breakClip_eq index e records]
    refine trails.trans ?_
    rw [breakDone_entries clips, breakDone_entries clips]
    rfl
  · rw [clipList_withClip, only]
    simp [recordClosed]

/-- The record of a broken clip whose master entries all lie below the break (R105, R106). -/
theorem recordClosed_eq {c : Clip} {e : Entry} {u : State} (index : Bool) (master : c.reach.master = e.frame)
    (further : isBelow e.frame c.reach.proxy = true) (queued : c.queued = ⟨false, false⟩)
    (below : ∀ y ∈ u.entries .master, y.allBelow e.frame = true)
    (own : ∀ y ∈ u.entries .proxy, brokenClips c.number y = true) : recordClosed c index e u =
      let marks := c.marks.filter fun m => !isBelow (e.frame - 1) m.frame
      { c with
        closing := some ⟨e.frame - 1, breakReason index e.stream⟩
        reach := ⟨e.frame, e.frame⟩
        counts := ⟨c.counts.master, countsWithout e.frame (removedAt e.frame (u.entries .proxy))
          (cutAt e.frame (u.entries .proxy)) c.counts.proxy⟩
        marks := marks
        lostMarks := min (c.lostMarks + (c.marks.length - marks.length)) 255
        queued := ⟨true, true⟩ } := by
  have reach := (trailerDue_recordBroken (u := u) index master further queued).1
  have counts : (recordBroken c index e u).counts = ⟨c.counts.master, countsWithout e.frame
      (removedAt e.frame (u.entries .proxy)) (cutAt e.frame (u.entries .proxy)) c.counts.proxy⟩ :=
    congrArg₂ Per.mk (foldl_takeBack_below _ below) (foldl_takeBack own _)
  exact (Clip.mk.injEq ..).mpr ⟨rfl, rfl, rfl, rfl, rfl, rfl, reach, counts, rfl, rfl, rfl, rfl⟩

/-! ## The attempt's end -/

/-- An attempt that ends without room for its picture breaks the recording clip (R27, R82). -/
theorem attemptEnd_breaks {s : State} {p : MasterPicture} {n : Nat} {c : Clip} (picture : s.master.picture = some p)
    (low : 1 ≤ n) (high : n ≤ p.width * p.height * 3) (cap : p.settings.cap = 0) (empty : s.inputs.master = [])
    (alone : s.clipList = [c]) (recording : c.closing = none) (above : isBelow p.item.frame c.first = false)
    (clips : ∀ st, ∀ y ∈ s.entries st, y.clip ≠ none) (crowded : ¬ HasRoom .master (n + 32) s) :
    ∃ b, exec (.attemptEnd n) s = .next (settle (coderIdle p.item.slot b))
      ∧ QueueWork (markIntake (pictureEntry p n s) (nextTag s)) b
      ∧ b = breakClip c.number (indexFull (s.entries .master)) (pictureEntry p n s)
        (markIntake (pictureEntry p n s) (nextTag s)) :=
  have takes : TakesFrame c p.item.frame (nextTag s) := takesFrame_alone (s := nextTag s) alone recording above
  ⟨_, attemptEnd_joins picture low high cap empty, join_work _ _,
    join_breaks (s := nextTag s) (e := pictureEntry p n s) rfl rfl takes crowded clips⟩

/-- The aging line goes past the picture, and past the newest of the proxy entries that the break takes (R86). -/
theorem breakLine_picture {c : Clip} {p : MasterPicture} {n : Nat} {s : State}
    (below : ∀ e ∈ s.entries .master, isBelow (frameAfter e.frame e.count - 1) p.item.frame = true) :
    breakLine c (pictureEntry p n s) (markIntake (pictureEntry p n s) (nextTag s))
      = (s.entries .proxy).foldl (newestBroken c.number p.item.frame) p.item.frame + 1 := by
  have last : (pictureEntry p n s).last = p.item.frame := last_one rfl
  have master : (s.entries .master).foldl (newestBroken c.number p.item.frame) p.item.frame = p.item.frame :=
    foldl_newestBroken_below _ below
  rw [breakLine, last]
  exact congrArg (fun x => (s.entries .proxy).foldl (newestBroken c.number p.item.frame) x + 1) master

/-- Settles O23: the break without trailers, and the one that queues them. -/
theorem fullQueueBreaks : Obligations.FullQueueBreaks := by
  refine ⟨?_, ?_⟩
  · intro s p n c calm picture low high cap empty alone recording above below short full x
    have crowded : ¬ HasRoom .master (n + 32) s := fun room =>
      full.elim (not_lt.mpr room.1) (not_lt.mpr room.2)
    have clips : ∀ st, ∀ y ∈ s.entries st, y.clip ≠ none := fun st y m => (below st y m).1
    obtain ⟨b, command, work, breaks⟩ := attemptEnd_breaks picture low high cap empty alone recording above clips crowded
    have records := (takesFrame_alone (x := x) alone recording above).1
    obtain ⟨waits, record⟩ := breakClip_waits (indexFull (s.entries .master)) (e := pictureEntry p n s)
      (u := markIntake (pictureEntry p n s) (nextTag s)) records clips short
    rw [waits] at breaks
    have settled := settledFrom (coderIdle p.item.slot b)
    obtain ⟨master, intake, proxy, governor, lines, settings, shared⟩ := coderIdle_stays work settled
    have shows : ShowsBreak breakNotices c (pictureEntry p n s) (markIntake (pictureEntry p n s) (nextTag s)) b := by
      rw [breaks]
      exact breakDone_shows _ clips
    obtain ⟨event, floor, lamp, line, clip, fault, raises, log⟩ := shows.settles settled
    refine ⟨_, command, ?_, event, clip, fault, log, raises, floor, lamp, ?_, ?_, fun st => ?_, master, intake, proxy,
      governor, lines, settings, shared⟩
    · rw [State.clipNumbered, State.clipList, settled.clips]
      change Option.map Clip.closing (b.clipNumbered c.number) = _
      rw [breaks, record, ← breakReason_master]
      rfl
    · rw [line, breakLine_picture fun e m => (below .master e m).2,
        foldl_newestBroken_below _ fun e m => (below .proxy e m).2]
      rfl
    · rw [settled.queue]
      exact (congrArg (·.queue.intakeMarks) work.besides :)
    · have stays : b.entries st = s.entries st := by
        rw [breaks, breakDone_entries (u := markIntake (pictureEntry p n s) (nextTag s)) clips]
        exact filterMap_brokenEntry_below fun y m => (below st y m).2
      rw [State.entries, settled.queue]
      exact stays
  · intro s p n c calm picture low high cap empty alone recording above own below reach further queued crowded x gone
      removed cut kept number marks closing broken
    have clips : ∀ st, ∀ y ∈ s.entries st, y.clip ≠ none := fun st y m => by simp [(own st y m).1]
    have theirs : ∀ st, ∀ y ∈ s.entries st, brokenClips c.number y = true := fun st y m => by
      simp [brokenClips, own st y m]
    obtain ⟨b, command, work, breaks⟩ := attemptEnd_breaks picture low high cap empty alone recording above clips crowded
    obtain ⟨trailer, trailers, trails, only⟩ := breakClip_trails (indexFull (s.entries .master))
      (e := pictureEntry p n s) (u := markIntake (pictureEntry p n s) (nextTag s)) alone recording
      (fun st y m => (own st y m).1) reach further queued
    rw [trails] at breaks
    have settled := settledFrom (coderIdle p.item.slot b)
    obtain ⟨master, intake, proxy, governor, lines, settings, shared⟩ := coderIdle_stays work settled
    have shows : ShowsBreak breakNotices c (pictureEntry p n s) (markIntake (pictureEntry p n s) (nextTag s)) b := by
      rw [breaks]
      exact (breakDone_shows (u := markIntake (pictureEntry p n s) (nextTag s)) _ clips).trailers _ _ _
    obtain ⟨event, floor, -, line, clip, fault, raises, -⟩ := shows.settles settled
    have record : recordClosed c (indexFull (s.entries .master)) (pictureEntry p n s)
        (markIntake (pictureEntry p n s) (nextTag s)) = broken := by
      refine (recordClosed_eq _ reach further queued below (theirs .proxy)).trans ?_
      rw [show breakReason (indexFull (s.entries .master)) (pictureEntry p n s).stream = _ from breakReason_master _]
      rfl
    refine ⟨_, command, ?_, fun st => ?_, ?_, floor, event, clip, fault, raises, master, intake, proxy, governor, lines,
      settings, shared⟩
    · rw [State.clipList, settled.clips]
      change b.clipList = _
      rw [breaks, State.clipList, clips_withEntries, clips_withEntries, ← record]
      exact only
    · have left : leftOf c (pictureEntry p n s) (markIntake (pictureEntry p n s) (nextTag s)) st = kept st :=
        filterMap_brokenEntry (theirs st)
      have joined : b.entries st = kept st ++ [trailer st] := by
        rw [breaks]
        cases st with
        | master => rw [entries_withEntries_other _ _ (by decide), entries_withEntries, left]
        | proxy => rw [entries_withEntries, left]
      rw [State.entries, settled.queue]
      refine joined.trans ?_
      rw [trailers, record, trailerOf_governor (s := s) rfl,
        show breakReason (indexFull (s.entries .master)) (pictureEntry p n s).stream = _ from breakReason_master _]
      rfl
    · rw [line, breakLine_picture below, foldl_newestBroken _ (theirs .proxy)]
      rfl

end Sys2Proof.Proofs
end

section
/-! SUPPORT. The segments that the part holds, counted by place, and what moves one of them from place to place
(R118, R120, R123, R130). -/

namespace Sys2Proof.Proofs

open Sys2Proof.Machine Sys2Proof.Laws

/-! ## Counting -/

/-- How often `a` is the start of a segment in a writer's list or of its current one. -/
def startsIn (a : Nat) (w : Writer) : Nat :=
  (w.segments.map Segment.start).count a + (w.current.map fun c => c.segment.start).toList.count a

/-- How often `a` is the start of a segment whose result waits. -/
def startsOf (a : Nat) (rs : List Result) : Nat := (rs.map fun r => r.segment.start).count a

/-- The waiting results of a stream of one sort: of segments that its writer closed, or of unused ones. -/
def resultsOf (own : Bool) (st : Stream) (rs : List Result) : Nat :=
  (rs.filter fun r => r.stream == st && r.own == own).length

theorem count_heldStarts (a : Nat) (s : State) : s.heldStarts.count a
    = startsIn a (s.writer .master) + startsIn a (s.writer .proxy) + startsOf a s.page.results := by
  simp only [State.heldStarts, startsIn, startsOf, List.count_append]
  omega

theorem segmentsSound_iff (s : State) : SegmentsSound s ↔
    (∀ a, startsIn a (s.writer .master) + startsIn a (s.writer .proxy) + startsOf a s.page.results ≤ 1)
      ∧ ∀ st, (s.writer st).segments.length ≤ 48
        ∧ resultsOf true st s.page.results + (s.writer st).current.toList.length ≤ 1
        ∧ resultsOf false st s.page.results ≤ 1 := by
  simp only [← count_heldStarts, ← List.nodup_iff_count_le_one, resultsOf, beq_true, beq_false]
  exact ⟨fun h => ⟨h.once, fun st => ⟨h.lists st, h.own st, h.unused st⟩⟩,
    fun h => ⟨h.1, fun st => (h.2 st).1, fun st => (h.2 st).2.1, fun st => (h.2 st).2.2⟩⟩

theorem startsOf_append (a : Nat) (rs : List Result) (r : Result) :
    startsOf a (rs ++ [r]) = startsOf a rs + [r.segment.start].count a := by
  simp [startsOf]

theorem resultsOf_append (own : Bool) (st : Stream) (rs : List Result) (r : Result) :
    resultsOf own st (rs ++ [r]) = resultsOf own st rs + if r.stream = st ∧ r.own = own then 1 else 0 := by
  by_cases h : r.stream = st ∧ r.own = own <;> simp [resultsOf, h]

theorem resultsOf_eq_zero {own : Bool} {st : Stream} {rs : List Result}
    (h : (rs.any fun r => r.stream == st && r.own == own) = false) : resultsOf own st rs = 0 := by
  simpa [resultsOf] using h

/-- What the segments' soundness is about: each stream's list and current segment, and the results by stream and sort. -/
def segmentPart (s : State) :=
  (fun st => ((s.writer st).segments, (s.writer st).current.map Current.segment),
    s.page.results.map fun r => (r.stream, r.own, r.segment))

theorem segmentsSound_of_part {s t : State} (h : segmentPart t = segmentPart s) (sound : SegmentsSound s) :
    SegmentsSound t := by
  obtain ⟨writers, results⟩ := Prod.mk.inj h
  have lists : ∀ st, (t.writer st).segments = (s.writer st).segments := fun st =>
    congrArg Prod.fst (congrFun writers st)
  have currents : ∀ st, (t.writer st).current.map Current.segment = (s.writer st).current.map Current.segment :=
    fun st => congrArg Prod.snd (congrFun writers st)
  have starts : ∀ a st, startsIn a (t.writer st) = startsIn a (s.writer st) := fun a st => by
    have current := congrArg (Option.map Segment.start) (currents st)
    simp only [Option.map_map, Function.comp_def] at current
    rw [startsIn, startsIn, lists, current]
  have waiting : ∀ a, startsOf a t.page.results = startsOf a s.page.results := fun a => by
    have starts := congrArg (List.map fun k => k.2.2.start) results
    simp only [List.map_map, Function.comp_def] at starts
    rw [startsOf, startsOf, starts]
  have sorts : ∀ own st, resultsOf own st t.page.results = resultsOf own st s.page.results := fun own st => by
    have count := congrArg (List.countP fun k => k.1 == st && k.2.1 == own) results
    rw [List.countP_map, List.countP_map, List.countP_eq_length_filter, List.countP_eq_length_filter] at count
    exact count
  have held : ∀ st, (t.writer st).current.toList.length = (s.writer st).current.toList.length := fun st => by
    have held := congrArg (fun o => o.toList.length) (currents st)
    rwa [Option.toList_map, Option.toList_map, List.length_map, List.length_map] at held
  rw [segmentsSound_iff] at sound ⊢
  simpa only [lists, starts, waiting, sorts, held] using sound

/-- A stream's writer and the results change so that the stream's segments only move: none is held more often, the list
is no longer, and what waits of the stream is within its bounds. -/
structure SegmentsMove (st : Stream) (s t : State) : Prop where
  other : t.writer (otherStream st) = s.writer (otherStream st)
  once : ∀ a, startsIn a (t.writer st) + startsOf a t.page.results
    ≤ startsIn a (s.writer st) + startsOf a s.page.results
  list : (t.writer st).segments.length ≤ (s.writer st).segments.length
  own : resultsOf true st t.page.results + (t.writer st).current.toList.length ≤ 1
  unused : resultsOf false st t.page.results ≤ 1
  waiting : ∀ own, resultsOf own (otherStream st) t.page.results ≤ resultsOf own (otherStream st) s.page.results

theorem SegmentsMove.sound {st : Stream} {s t : State} (move : SegmentsMove st s t) (sound : SegmentsSound s) :
    SegmentsSound t := by
  obtain ⟨other, once, list, own, unused, waiting⟩ := move
  rw [segmentsSound_iff] at sound ⊢
  obtain ⟨starts, bounds⟩ := sound
  have same := bounds st
  have rest := bounds (otherStream st)
  have mine := waiting true
  have theirs := waiting false
  refine ⟨fun a => ?_, fun o => ?_⟩
  · have before := starts a
    have after := once a
    cases st <;> simp only [otherStream] at other <;> rw [other] <;> omega
  · by_cases e : o = st
    · subst e
      exact ⟨list.trans same.1, own, unused⟩
    · obtain rfl : o = otherStream st := by cases st <;> cases o <;> simp_all [otherStream]
      rw [other]
      omega

end Sys2Proof.Proofs
end

section
/-! SUPPORT. What the work of the blocks leaves of shared memory, of the port's grant and of the segments held, and what
settling does to them (R118, R123, R130, R135). -/

namespace Sys2Proof.Proofs

open Sys2Proof.Machine Sys2Proof.Laws

/-! ## The port, shared memory and the segments -/

/-- The port carries a burst of the requester it is granted to (R135). -/
abbrev Granted (s : State) : Prop :=
  ∀ r, s.arbiter.port = some r → (s.arbiter.bursts.get r).isSome = true

/-- `t` comes from `s` by work that no answer of the port is part of: shared memory is as it was, the port still carries
the burst of its requester, and no segment has come to stand in two places. -/
structure PortWork (s t : State) : Prop where
  shared : t.shared = s.shared
  granted : Granted s → Granted t
  segments : SegmentsSound s → SegmentsSound t

theorem PortWork.refl (s : State) : PortWork s s := ⟨rfl, id, id⟩

theorem PortWork.trans {s t u : State} (h : PortWork s t) (k : PortWork t u) : PortWork s u :=
  ⟨k.shared.trans h.shared, fun g => k.granted (h.granted g), fun g => k.segments (h.segments g)⟩

/-- `PortWork.trans` with the later work named first. -/
theorem PortWork.after {s t u : State} (k : PortWork t u) (h : PortWork s t) : PortWork s u := h.trans k

theorem PortWork.ite {s t u : State} {p : Prop} [Decidable p] (h : PortWork s t) (k : PortWork s u) :
    PortWork s (if p then t else u) := by
  split
  · exact h
  · exact k

/-- All that the port, shared memory and the segments' soundness are about. -/
def portPart (s : State) := (s.shared, s.arbiter.port, s.arbiter.bursts, segmentPart s)

theorem PortWork.of_part {s t : State} (h : portPart t = portPart s) : PortWork s t := by
  simp only [portPart, Prod.mk.injEq] at h
  obtain ⟨shared, port, bursts, segments⟩ := h
  exact ⟨shared, by simp only [Granted, port, bursts]; exact id, segmentsSound_of_part segments⟩

theorem coderWork_part {s t : State} (h : CoderWork s t) : portPart t = portPart s :=
  (congrArg portPart h.besides :)

theorem queueWork_part {s t : State} (h : QueueWork s t) : portPart t = portPart s := coderWork_part h.coders

theorem raiseIf_port (b : Bool) (n : Notice) (s : State) : PortWork s (raiseIf b n s) :=
  .of_part (queueWork_part (raiseIf_work b n s))

theorem changeWalker_port (f : Walker → Walker) (s : State) : PortWork s (changeWalker f s) := .of_part rfl

theorem requestBurst_port (r : Requester) (b : Burst) (s : State) : PortWork s (requestBurst r b s) := by
  refine ⟨rfl, fun granted q port => ?_, segmentsSound_of_part rfl⟩
  by_cases same : q = r
  · subst same
    simp [requestBurst]
  · exact (congrArg Option.isSome (Quad.get_set_other _ _ same)).trans (granted q port)

theorem withdrawBurst_port (r : Requester) (s : State) : PortWork s (withdrawBurst r s) := by
  unfold withdrawBurst
  split
  · exact .refl s
  · next waits =>
    refine ⟨rfl, fun granted q port => ?_, segmentsSound_of_part rfl⟩
    have other : q ≠ r := fun same => waits (by rw [← same]; exact beq_iff_eq.mpr port)
    exact (congrArg Option.isSome (Quad.get_set_other _ _ other)).trans (granted q port)

theorem complete_port (v : Verdict) (detail : Nat) (s : State) : PortWork s (complete v detail s) := by
  unfold complete
  split
  · exact .refl s
  · next b _ =>
    have staged : PortWork s
        (putStage (.outcome v.code detail s.intake.counter) (changeWalker (goUnlessStopping .walking) s)) :=
      .of_part rfl
    exact staged.trans (requestBurst_port _ _ _)

/-! ## Writers and results -/

/-- A writer may change while its list and its current segment stay. -/
theorem putWriter_port {st : Stream} {w : Writer} {s : State} (segments : w.segments = (s.writer st).segments)
    (current : w.current.map Current.segment = (s.writer st).current.map Current.segment) :
    PortWork s (putWriter st w s) := by
  refine .of_part ?_
  simp only [portPart, segmentPart, Prod.mk.injEq, putWriter, and_true, true_and]
  funext o
  by_cases same : o = st
  · subst same
    simp [State.writer, segments, current]
  · simp [State.writer, Per.get_set_other _ _ same]

section
variable (st : Stream) (l : List Segment) (s : State)

@[simp] theorem segments_putSegments : ((putSegments st l s).writer st).segments = l := by
  simp [putSegments, refreshBelow]

@[simp] theorem current_putSegments : ((putSegments st l s).writer st).current = (s.writer st).current := by
  simp [putSegments, refreshBelow]

@[simp] theorem relinquish_putSegments : ((putSegments st l s).writer st).relinquish = (s.writer st).relinquish := by
  simp [putSegments, refreshBelow]

@[simp] theorem written_putSegments : ((putSegments st l s).writer st).written = (s.writer st).written := by
  simp [putSegments, refreshBelow]

@[simp] theorem writer_putSegments_other :
    (putSegments st l s).writer (otherStream st) = s.writer (otherStream st) := by
  simp [putSegments, refreshBelow]

@[simp] theorem results_putSegments : (putSegments st l s).page.results = s.page.results := by
  simp [putSegments, refreshBelow, page_raiseIf, putWriter]

@[simp] theorem arbiter_putSegments : (putSegments st l s).arbiter = s.arbiter := by
  simp [putSegments, refreshBelow, putWriter]

@[simp] theorem walker_putSegments : (putSegments st l s).walker = s.walker := by
  simp [putSegments, refreshBelow, putWriter]

end

/-- Where the port and shared memory stay, a move of segments is such work. -/
theorem PortWork.of_move {st : Stream} {s t : State} (shared : t.shared = s.shared) (arbiter : t.arbiter = s.arbiter)
    (move : SegmentsSound s → SegmentsMove st s t) : PortWork s t :=
  ⟨shared, by simp only [Granted, arbiter]; exact id, fun sound => (move sound).sound sound⟩

/-- What the bounds say of one stream. -/
theorem segmentsSound_bounds {s : State} (sound : SegmentsSound s) (st : Stream) :
    (s.writer st).segments.length ≤ 48 ∧ resultsOf true st s.page.results + (s.writer st).current.toList.length ≤ 1
      ∧ resultsOf false st s.page.results ≤ 1 := ((segmentsSound_iff s).mp sound).2 st

/-- A current segment goes to its result, which is the writer's own (R123, R129). -/
theorem handClosed_port {st : Stream} {c : Current} {x : Result} {w : Writer} {s : State}
    (current : (s.writer st).current = some c) (stream : x.stream = st) (own : x.own = true)
    (segment : x.segment = c.segment) (segments : w.segments = (s.writer st).segments) (closed : w.current = none) :
    PortWork s (handResult x (putWriter st w s)) := by
  refine .of_move (st := st) rfl rfl fun sound => ?_
  obtain ⟨-, mine, unused⟩ := segmentsSound_bounds sound st
  have writer : (handResult x (putWriter st w s)).writer st = w := writer_putWriter_same st w s
  have results : (handResult x (putWriter st w s)).page.results = s.page.results ++ [x] := rfl
  rw [current] at mine
  refine ⟨writer_putWriter_other st w s, fun a => ?_, ?_, ?_, ?_, fun sort => ?_⟩ <;> simp only [writer, results]
  · simp only [startsOf_append, startsIn, segments, closed, current, segment]
    simp [Nat.add_assoc, Nat.add_comm, Nat.add_left_comm]
  · rw [segments]
  · simpa [resultsOf_append, stream, own, closed] using mine
  · simpa [resultsOf_append, own] using unused
  · simp [resultsOf_append, stream, (other_ne st).symm]

theorem closeSegment_port (st : Stream) (reason : Reason) (s : State) : PortWork s (closeSegment st reason s) := by
  unfold closeSegment
  dsimp only
  split
  · exact .refl s
  · next c current => exact handClosed_port current rfl rfl rfl rfl rfl

theorem closeUndone_port (st : Stream) (reason : Reason) (n : Nat) (s : State) :
    PortWork s (closeUndone st reason n s) := by
  unfold closeUndone
  dsimp only
  split
  · exact .refl s
  · next c current => exact handClosed_port current rfl rfl rfl rfl rfl

/-- A segment leaves its list unused, while no other unused one of its stream waits (R130; log entry 33). -/
theorem returnUnused_port {st : Stream} {s : State} (none_ : awaitsUnused st s = false) (reason : Reason)
    (counted : Bool) : PortWork s (returnUnused st reason counted s) := by
  unfold returnUnused
  split
  · exact .refl s
  · next g rest segments =>
    refine .of_move (st := st) (putSegments_followedBy st rest s).shared (arbiter_putSegments st rest s) fun sound => ?_
    have writer : ∀ o, (handResult (unusedResult st g reason counted) (putSegments st rest s)).writer o
        = (putSegments st rest s).writer o := fun _ => rfl
    have results : (handResult (unusedResult st g reason counted) (putSegments st rest s)).page.results
        = s.page.results ++ [unusedResult st g reason counted] :=
      congrArg (· ++ [unusedResult st g reason counted]) (results_putSegments st rest s)
    have waiting : resultsOf false st s.page.results = 0 := resultsOf_eq_zero (by simpa [awaitsUnused] using none_)
    obtain ⟨-, mine, -⟩ := segmentsSound_bounds sound st
    refine ⟨?_, fun a => ?_, ?_, ?_, ?_, fun sort => ?_⟩ <;> simp only [writer, results]
    · exact writer_putSegments_other st rest s
    · simp [startsOf_append, startsIn, segments, unusedResult, List.count_cons]
      omega
    · simp [segments]
    · simpa [resultsOf_append, unusedResult] using mine
    · simp [resultsOf_append, unusedResult, waiting]
    · simp [resultsOf_append, unusedResult, (other_ne st).symm]

/-! ## Settling -/

theorem advanceReturns_port (st : Stream) (s : State) : PortWork s (advanceReturns st s) := by
  unfold advanceReturns
  split
  · unfold advanceReset
    split
    · exact .refl s
    · next waits =>
      split
      · exact closeUndone_port st _ _ s
      · exact returnUnused_port (by simp_all [awaitsUnused]) _ _
  · unfold advanceRelinquish
    split
    · exact .refl s
    · refine .ite (.refl s) (.ite ((complete_port _ _ _).after (putWriter_port rfl rfl)) ?_)
      split
      · exact .refl s
      · next waits => exact returnUnused_port (by simpa using waits) _ _

/-- The segment at the front of a list becomes the current one, while the writer holds and awaits none (R123). -/
theorem takeSegment_port (st : Stream) (s : State) : PortWork s (takeSegment st s) := by
  unfold takeSegment
  dsimp only
  split
  · next takes =>
    split
    · exact .refl s
    · next g rest segments =>
      simp only [Bool.and_eq_true, Bool.not_eq_true', Option.isNone_iff_eq_none] at takes
      obtain ⟨⟨⟨⟨-, current⟩, awaits⟩, -⟩, -⟩ := takes
      refine .of_move (st := st) (putSegments_followedBy st rest _).shared (arbiter_putSegments st rest _) fun sound => ?_
      have waiting : resultsOf true st s.page.results = 0 := resultsOf_eq_zero (by simpa [awaitsResult] using awaits)
      obtain ⟨-, -, unused⟩ := segmentsSound_bounds sound st
      refine ⟨by simp, fun a => ?_, by simp [segments], ?_, ?_, fun sort => ?_⟩ <;> rw [results_putSegments]
      · refine Nat.add_le_add_right ?_ (startsOf a s.page.results)
        simp [startsIn, segments, current, List.count_cons]
      · change resultsOf true st s.page.results + _ ≤ 1
        simp [waiting]
      · exact unused
      · exact Nat.le_refl _
  · exact .refl s

theorem requestWrite_port (st : Stream) (s : State) : PortWork s (requestWrite st s) := by
  unfold requestWrite
  dsimp only
  split
  · exact .ite (requestBurst_port _ _ s) (.refl s)
  · exact .refl s

theorem settleWriter_port (st : Stream) (s : State) : PortWork s (settleWriter st s) :=
  (((advanceReturns_port st s).trans (takeSegment_port st _)).trans (requestWrite_port st _)).trans
    ((raiseIf_port _ _ _).after (putWriter_port rfl rfl))

theorem testDrained_port (s : State) : PortWork s (testDrained s) := .ite (complete_port _ _ s) (.refl s)

theorem pageRequest_port (s : State) : PortWork s (pageRequest s) := by
  have rewrite : PortWork s (requestRewrite s) := (requestBurst_port _ _ _).after (.of_part rfl)
  have result : ∀ r, PortWork s (requestResult r s) := fun r =>
    (requestBurst_port _ _ _).after (.of_part rfl)
  rcases pageRequest_cases s with ⟨_, e⟩ | ⟨_, _, _, e⟩ | ⟨r, _, _, _, e⟩ | ⟨_, _, _, e⟩ <;> rw [e]
  · exact .refl s
  · exact rewrite
  · exact result r
  · exact .refl s

/-- The arbiter's grant leaves the port free only where no burst waits (R135). -/
theorem grantPort_sound {s : State} (granted : Granted s) : PortSound (grantPort s) := by
  obtain ⟨⟨busy, idle, grants⟩, -, others, page⟩ := grantPort_acts s
  refine ⟨fun r port => ?_, fun free => (idle free).2⟩
  by_cases free : s.arbiter.port = none
  · exact (grants free r port).2.1
  · have bursts : (grantPort s).arbiter.bursts = s.arbiter.bursts := by
      rcases page with ⟨_, same, _⟩ | ⟨now, _⟩
      · exact same
      · exact absurd now free
    rw [bursts]
    exact granted r ((busy free).1.symm.trans port)

theorem grantPort_port (s : State) : PortWork s (grantPort s) := by
  refine ⟨(grantPort_followedBy s).shared, fun granted => (grantPort_sound granted).granted, segmentsSound_of_part ?_⟩
  unfold grantPort
  split
  · rfl
  · split
    · rfl
    · dsimp only
      split <;> rfl

/-- What settling does up to the arbiter's grant. -/
theorem beforeGrant_port (s : State) :
    PortWork s (pageRequest (testDrained (settleWriter .proxy (settleWriter .master s)))) :=
  (((settleWriter_port .master s).trans (settleWriter_port .proxy _)).trans (testDrained_port _)).trans
    (pageRequest_port _)

theorem settle_port (s : State) : PortWork s (settle s) := (beforeGrant_port s).trans (grantPort_port _)

theorem settle_portSound {s : State} (granted : Granted s) : PortSound (settle s) :=
  grantPort_sound ((beforeGrant_port s).granted granted)

end Sys2Proof.Proofs
end

section
/-! SUPPORT. What the burst answers' owners and the walker leave of shared memory, of the port's grant and of the
segments held. -/

namespace Sys2Proof.Proofs

open Sys2Proof.Machine Sys2Proof.Laws

/-! ## Faults and chains -/

theorem reportFault_port (f : FaultReport) (s : State) : PortWork s (reportFault f s) :=
  .of_part (queueWork_part (reportFault_work f s))

theorem takeBlock_port (a : Nat) (s : State) : PortWork s (takeBlock a s) :=
  (requestBurst_port _ _ _).after (changeWalker_port _ s)

theorem endChain_port (s : State) : PortWork s (endChain s) := by
  have told : PortWork s (raise .chain s) := .of_part rfl
  unfold endChain
  dsimp only
  split
  · exact (told.trans (changeWalker_port _ _)).trans ((takeBlock_port _ _).after (changeWalker_port _ _))
  · exact told.trans (changeWalker_port _ _)

theorem endChainFault_port (kind : FaultKind) (a : Nat) (x : Frame) (s : State) :
    PortWork s (endChainFault kind a x s) := (reportFault_port _ s).trans (endChain_port _)

theorem actOn_port (c : Continuation) (s : State) : PortWork s (actOn c s) := by
  cases c with
  | chainEnd => exact endChain_port s
  | next a => exact .ite (endChainFault_port _ _ _ s) (.ite (endChainFault_port _ _ _ s) (takeBlock_port a s))

/-! ## The Page Writer and the Stream Writers -/

theorem resultSlotWritten_port (s : State) : PortWork s (resultSlotWritten s) := by
  unfold resultSlotWritten
  split
  · exact .refl s
  · exact (requestBurst_port _ _ _).after (.of_part rfl)

theorem countRelinquished_port (r : Result) (s : State) : PortWork s (countRelinquished r s) :=
  .ite (putWriter_port rfl rfl) (.refl s)

/-- The oldest result leaves the queue, and its segment is held no more (R130). -/
theorem leaves_port {r : Result} {rest : List Result} {s : State} (results : s.page.results = r :: rest) :
    PortWork s { s with page := { s.page with results := rest } } := by
  refine .of_move (st := r.stream) rfl rfl fun sound => ?_
  have fewer : ∀ own st, resultsOf own st rest ≤ resultsOf own st s.page.results := fun own st => by
    rw [results]
    exact ((List.sublist_cons_self r rest).filter _).length_le
  obtain ⟨-, own, unused⟩ := segmentsSound_bounds sound r.stream
  refine ⟨rfl, fun a => Nat.add_le_add_left ?_ _, Nat.le_refl _, ?_, (fewer _ _).trans unused, fun _ => fewer _ _⟩
  · rw [results]
    exact ((List.sublist_cons_self r rest).map _).count_le a
  · exact (Nat.add_le_add_right (fewer true r.stream) _).trans own

theorem segmentReturned_port (s : State) : PortWork s (segmentReturned s) := by
  unfold segmentReturned
  split
  · exact .refl s
  · next results =>
    refine (countRelinquished_port _ _).after (PortWork.after ?_ (leaves_port results))
    exact .of_part rfl

theorem writerAdvanced_port (st : Stream) (n : Nat) (s : State) : PortWork s (writerAdvanced st n s) := by
  unfold writerAdvanced
  dsimp only
  split
  · next e c _ current =>
    have kept : ∀ gapTime w, (countGap gapTime n w).segments = w.segments
        ∧ (countGap gapTime n w).current = w.current := fun gapTime w => by
      rw [countGap_eq]
      exact ⟨rfl, rfl⟩
    have advanced : ∀ k, PortWork s (putWriter st (countGap s.writers.gapTime n { s.writer st with
        current := some (advanceCurrent e (s.writer st).written n c), written := k }) s) := fun k =>
      putWriter_port (kept _ _).1 (by rw [(kept _ _).2, current]; rfl)
    have removed : ∀ {u}, PortWork s u → ∀ p : Prop, [Decidable p] → PortWork s (if p then removeFront st e u else u) :=
      fun h _ _ => .ite (h.trans (.of_part (queueWork_part (removeFront_work st e _)))) h
    split
    · exact (closeSegment_port _ _ _).after (removed (advanced _) _)
    · exact .ite ((closeSegment_port _ _ _).after (removed (advanced _) _)) (removed (advanced _) _)
  · exact .refl s

theorem resultFailed_port (b : Burst) (s : State) : PortWork s (resultFailed b s) := by
  unfold resultFailed
  split
  · exact .refl s
  · next r _ _ =>
    have counted : PortWork s (if b.kind = .resultSlot then countReturned r.segment.block s else s) :=
      .ite (.of_part rfl) (.refl s)
    exact (counted.trans (reportFault_port _ _)).trans (segmentReturned_port _)

theorem writerFailed_port (st : Stream) (kind : FaultKind) (b : Burst) (s : State) :
    PortWork s (writerFailed st kind b s) := by
  have rewound : ∀ u : State, PortWork u (putWriter st { u.writer st with written := 0 } u) := fun _ =>
    putWriter_port rfl rfl
  exact (reportFault_port _ _).after ((rewound _).after (closeUndone_port st _ _ s))

theorem burstFailed_port (r : Requester) (kind : FaultKind) (b : Burst) (s : State) :
    PortWork s (burstFailed r kind b s) := by
  cases r with
  | walker => exact (endChainFault_port _ _ _ _).after (changeWalker_port _ s)
  | page => exact .ite (reportFault_port _ s) (resultFailed_port b s)
  | master => exact writerFailed_port .master kind b s
  | proxy => exact writerFailed_port .proxy kind b s

/-! ## The walker -/

theorem takeEntry_port (v : BitVec 32) (s : State) : PortWork s (takeEntry v s) := by
  have refused : ∀ reason, PortWork s (refuseEntry reason s) := fun _ => .of_part rfl
  have hold : PortWork s (holdEntry (16 * v.toNat) s) := .ite (refused _) (changeWalker_port _ s)
  unfold takeEntry
  refine .ite (refused _) (.ite (refused _) ?_)
  split
  · exact refused _
  · exact (takeBlock_port _ _).after (changeWalker_port _ s)
  all_goals exact hold

theorem goOrAbandon_port (f : Flight) (s : State) : PortWork s (goOrAbandon f s) :=
  .ite (complete_port _ _ s) (.of_part rfl)

theorem handOver_port (kind : DirectiveKind) (s : State) : PortWork s (handOver kind s) := by
  cases kind with
  | roll => exact goOrAbandon_port _ s
  | cut => exact goOrAbandon_port _ s
  | _ => exact .of_part rfl

theorem requestBody_port (b : Block) (s : State) : PortWork s (requestBody b s) :=
  PortWork.trans (requestBurst_port _ _ s) (.of_part rfl)

theorem requestSource_port (b : Block) (got : List Byte) (s : State) : PortWork s (requestSource b got s) :=
  ((requestBurst_port _ _ _).after (changeWalker_port _ s)).trans (.of_part rfl)

theorem requestGrantWrite_port (b : Block) (refused : Nat) (left : List (Nat × Reason)) (s : State) :
    PortWork s (requestGrantWrite b refused left s) := by
  unfold requestGrantWrite
  split <;> exact PortWork.trans (requestBurst_port _ _ s) (.of_part rfl)

theorem headerArrived_port (bytes : List Byte) (s : State) : PortWork s (headerArrived bytes s) := by
  unfold headerArrived
  split
  · exact .refl s
  · have fetched : ∀ b, PortWork s (changeBlock (fun _ => b) s) := fun _ => .of_part rfl
    dsimp only
    unfold headerChecked
    split
    · exact (fetched _).trans (complete_port _ _ _)
    · exact .ite (.ite ((fetched _).trans (handOver_port _ _)) ((fetched _).trans (requestBody_port _ _)))
        ((fetched _).trans (complete_port _ _ _))

theorem bodyArrived_port (n : Nat) (bytes : List Byte) (s : State) : PortWork s (bodyArrived n bytes s) := by
  unfold bodyArrived
  split
  · exact .refl s
  · have fetched : ∀ b, PortWork s (changeBlock (fun _ => b) s) := fun _ => .of_part rfl
    dsimp only
    refine .ite ((fetched _).trans (requestBody_port _ _)) ?_
    split
    · exact (fetched _).trans (handOver_port _ _)
    · exact fetched _

theorem sourceArrived_port (n : Nat) (bytes : List Byte) (s : State) : PortWork s (sourceArrived n bytes s) := by
  unfold sourceArrived
  split
  · exact .refl s
  · split
    · exact .ite (requestSource_port _ _ s)
        (.ite ((complete_port _ _ _).after (.of_part rfl)) ((complete_port _ _ _).after (.of_part rfl)))
    · exact .refl s

theorem refusedSlotWritten_port (s : State) : PortWork s (refusedSlotWritten s) := by
  unfold refusedSlotWritten
  split
  · exact .refl s
  · split
    · exact requestGrantWrite_port _ _ _ s
    · exact .refl s

theorem returnedCountWritten_port (s : State) : PortWork s (returnedCountWritten s) := by
  unfold returnedCountWritten
  split
  · exact .refl s
  · split
    · exact complete_port _ _ s
    · exact .refl s

theorem outcomeWritten_port (s : State) : PortWork s (outcomeWritten s) := by
  unfold outcomeWritten
  split
  · exact .refl s
  · next b _ =>
    split
    · next code _ frame _ =>
      have told : PortWork s (raiseIf (b.flag 2) .chain (changeWalker (fun w =>
          { w with lastBlock := some (b.address, frame), lastTag := b.hostTag }) s)) :=
        (changeWalker_port _ s).trans (raiseIf_port _ _ _)
      exact .ite ((endChain_port _).after (told.trans (changeWalker_port _ _)))
        (.ite (told.trans (changeWalker_port _ _)) (told.trans (actOn_port _ _)))
    · exact .refl s

/-- A RELINQUISH is withdrawn: its results stay what they are, but for whom they count (R134). -/
theorem withdrawRelinquish_port (st : Stream) (s : State) : PortWork s (withdrawRelinquish st s) := by
  refine PortWork.trans (t := putWriter st { s.writer st with relinquish := none } s) (putWriter_port rfl rfl) ?_
  refine .of_part ?_
  simp only [portPart, segmentPart, withdrawRelinquish, Prod.mk.injEq, true_and]
  refine ⟨rfl, ?_⟩
  rw [List.map_map]
  refine List.map_congr_left fun r _ => ?_
  simp only [Function.comp_apply]
  split <;> rfl

theorem withdrawFlight_port (f : Flight) (s : State) : PortWork s (withdrawFlight f s) := by
  cases f with
  | stopIntake => exact .ite (.of_part rfl) (.refl s)
  | relinquish st => exact withdrawRelinquish_port st s
  | _ => exact .refl s

end Sys2Proof.Proofs
end

section
/-! SUPPORT. What the directives, Clip Control, the event lines, the registers and the pictures leave of shared memory,
of the port's grant and of the segments held. -/

namespace Sys2Proof.Proofs

open Sys2Proof.Machine Sys2Proof.Laws

/-! ## GRANT -/

/-- The segments that a GRANT takes are not held, are no two at one address, and fill the list to 48 at most (R120). -/
theorem gradeSlots_taken (b : Block) (left i : Nat) (held : List Nat) (listed : Nat) :
    let taken := (gradeSlots b left i held listed).1
    (∀ a, (taken.map Segment.start).count a ≤ if a ∈ held then 0 else 1)
      ∧ (listed ≤ 48 → listed + taken.length ≤ 48) := by
  induction left generalizing i held listed with
  | zero => exact ⟨fun a => Nat.zero_le _, id⟩
  | succ left ih =>
    unfold gradeSlots
    dsimp only
    split
    · exact ih (i + 1) held listed
    · next takes =>
      unfold slotRefusal at takes
      split at takes
      · cases takes
      split at takes
      · cases takes
      next new =>
      split at takes
      · cases takes
      next room =>
      obtain ⟨once, list⟩ := ih (i + 1) ((b.grantSlot i).address :: held) (listed + 1)
      refine ⟨fun a => ?_, fun _ => ?_⟩
      · have rest := once a
        rw [List.contains_iff_mem] at new
        by_cases same : (b.grantSlot i).address = a
        · subst same
          simpa [new] using rest
        · simpa [same, Ne.symm same] using rest
      · have rest := list (by omega)
        simp only [List.length_cons]
        omega

theorem grantListed_port (b : Block) (st : Stream) (n : Nat) (s : State) :
    PortWork s (putSegments st ((s.writer st).segments
      ++ (gradeSlots b n 0 s.heldStarts (s.writer st).segments.length).1) s) := by
  obtain ⟨once, list⟩ := gradeSlots_taken b n 0 s.heldStarts (s.writer st).segments.length
  generalize (gradeSlots b n 0 s.heldStarts (s.writer st).segments.length).1 = taken at once list ⊢
  refine ⟨(putSegments_followedBy st _ s).shared, by simp only [Granted, arbiter_putSegments]; exact id, fun sound => ?_⟩
  have before := sound
  rw [segmentsSound_iff] at before ⊢
  obtain ⟨-, bounds⟩ := before
  have starts : ∀ a, startsIn a ((putSegments st ((s.writer st).segments ++ taken) s).writer st)
      = startsIn a (s.writer st) + (taken.map Segment.start).count a := fun a => by
    simp only [startsIn, segments_putSegments, current_putSegments, List.map_append, List.count_append]
    omega
  rw [results_putSegments]
  refine ⟨fun a => ?_, fun o => ?_⟩
  · have held := List.nodup_iff_count_le_one.mp sound.once a
    have new := once a
    have more := starts a
    have other := congrArg (startsIn a) (writer_putSegments_other st ((s.writer st).segments ++ taken) s)
    have total : s.heldStarts.count a + (taken.map Segment.start).count a ≤ 1 := by
      split at new
      · omega
      · next absent =>
        have none_ := List.count_eq_zero_of_not_mem absent
        omega
    rw [count_heldStarts] at total
    cases st <;> simp only [otherStream] at other <;> omega
  · by_cases same : o = st
    · subst same
      obtain ⟨fits, own⟩ := bounds o
      simp only [segments_putSegments, current_putSegments, List.length_append]
      exact ⟨list fits, own⟩
    · obtain rfl : o = otherStream st := by cases st <;> cases o <;> simp_all [otherStream]
      rw [writer_putSegments_other]
      exact bounds _

theorem grantDirective_port (b : Block) (s : State) : PortWork s (grantDirective b s) := by
  unfold grantDirective
  split
  · exact complete_port _ _ s
  · next st _ =>
    refine (requestGrantWrite_port _ _ _ _).after (PortWork.after ?_ (grantListed_port b st (b.u8 33) s))
    exact .of_part rfl

/-! ## The other directives -/

theorem setupDirective_port (b : Block) (s : State) : PortWork s (setupDirective b s) := by
  unfold setupDirective
  split
  · exact complete_port _ _ s
  · refine (complete_port _ _ _).after ?_
    refine PortWork.after (.of_part (queueWork_part ((discardHeld_work _).trans (floorAtNext_work _)))) ?_
    exact .of_part rfl

theorem refreshBelow_port (st : Stream) (s : State) : PortWork s (refreshBelow st s) :=
  (raiseIf_port _ _ _).after (putWriter_port rfl rfl)

theorem tuneWatermark_port (f : TuneFields) (s : State) : PortWork s (tuneWatermark f s) := by
  refine .ite (.refl s) ((refreshBelow_port _ _).after ((refreshBelow_port _ _).after ?_))
  exact .of_part rfl

theorem tuneGap_port (f : TuneFields) (s : State) : PortWork s (tuneGap f s) := by
  have held : ∀ w, (holdGap (min f.gapTime 1000) w).segments = w.segments
      ∧ (holdGap (min f.gapTime 1000) w).current = w.current := fun w => by
    unfold holdGap
    split <;> exact ⟨rfl, rfl⟩
  refine .of_part ?_
  simp only [portPart, segmentPart, tuneGap, Prod.mk.injEq, and_true, true_and]
  funext st
  cases st <;> simp [State.writer, Per.map, Per.get, held]

theorem tuneTaken_port (f : TuneFields) (s : State) : PortWork s (tuneTaken f s) := by
  have depth : ∀ u, PortWork u (tuneDepth f u) := fun u =>
    PortWork.after (.of_part (queueWork_part (depthEffects_work _ _ _))) (.of_part rfl)
  have highMark : ∀ u, PortWork u (tuneHighMark f u) := fun u => by
    refine .ite (.refl u) (PortWork.after
      (.of_part (queueWork_part ((putQueue_work .master _ _).trans (putQueue_work .proxy _ _)))) ?_)
    exact .of_part rfl
  have tally : ∀ u, PortWork u (tuneTally f u) := fun u => .ite (.refl u) (.of_part rfl)
  have books : PortWork s (tuneGovernor f (tuneMaster f s)) := .of_part rfl
  have marks := ((books.trans (depth _)).trans (highMark _)).trans (tally _)
  have gap : PortWork s (tuneGap f (tuneBlink f _)) := (tuneGap_port f _).after (marks.trans (.of_part rfl))
  exact (gap.trans (tuneWatermark_port f _)).trans (.of_part rfl)

theorem tuneDirective_port (b : Block) (s : State) : PortWork s (tuneDirective b s) :=
  (complete_port _ _ _).after (tuneTaken_port _ s)

theorem linesDirective_port (b : Block) (s : State) : PortWork s (linesDirective b s) := by
  unfold linesDirective
  split
  · exact complete_port _ _ s
  · refine .ite (complete_port _ _ s) ((complete_port _ _ _).after ((raiseIf_port _ _ _).after ?_))
    exact .of_part rfl

theorem loadDirective_port (b : Block) (s : State) : PortWork s (loadDirective b s) := by
  unfold loadDirective
  refine .ite ?_ (complete_port _ _ s)
  split
  · exact goOrAbandon_port _ s
  · exact requestSource_port _ _ s

theorem beginRelinquish_port (st : Stream) (close : Bool) (s : State) : PortWork s (beginRelinquish st close s) := by
  have marked : ∀ q, PortWork s (putWriter st { s.writer st with relinquish := q } s) := fun _ => putWriter_port rfl rfl
  unfold beginRelinquish
  dsimp only
  split
  · refine .ite (marked _) (.ite (marked _) ?_)
    exact (closeSegment_port _ _ _).after ((withdrawBurst_port _ _).after (marked _))
  · exact marked _

theorem relinquishDirective_port (b : Block) (s : State) : PortWork s (relinquishDirective b s) := by
  unfold relinquishDirective
  split
  · exact complete_port _ _ s
  · exact .ite (complete_port _ _ s) ((beginRelinquish_port _ _ _).after (.of_part rfl))

theorem startDirective_port (b : Block) (s : State) : PortWork s (startDirective b s) := by
  have started : PortWork s (startIntake s) := by
    refine PortWork.after (.of_part (queueWork_part ((discardHeld_work _).trans (floorAtNext_work _)))) ?_
    exact .of_part rfl
  unfold startDirective
  split
  · exact .ite ((complete_port _ _ _).after started) (complete_port _ _ s)
  all_goals exact complete_port _ _ s

theorem stopDirective_port (b : Block) (s : State) : PortWork s (stopDirective b s) := by
  unfold stopDirective
  split
  case h_3 =>
    exact .ite (complete_port _ _ s) (.ite ((complete_port _ _ _).after (.of_part rfl))
      (.ite (complete_port _ _ s) (.of_part rfl)))
  all_goals exact complete_port _ _ s

theorem timecodeDirective_port (b : Block) (s : State) : PortWork s (timecodeDirective b s) := by
  have put : ∀ v detail l, PortWork s (complete v detail (putLabel l s)) := fun _ _ _ =>
    (complete_port _ _ _).after (.of_part rfl)
  unfold timecodeDirective
  split
  · exact complete_port _ _ s
  · exact .ite (.ite (put _ _ _) (put _ _ _)) (complete_port _ _ s)

theorem waitDirective_port (b : Block) (s : State) : PortWork s (waitDirective b s) :=
  .ite (.ite (complete_port _ _ s) (goOrAbandon_port _ s))
    (.ite (.ite (complete_port _ _ s) (goOrAbandon_port _ s)) (complete_port _ _ s))

/-! ## Clip Control -/

theorem openClip_port (k : Nat) (first : Frame) (s : State) : PortWork s (openClip k first s) := by
  refine PortWork.after (.of_part (queueWork_part (((commitFrom_work _ _ _).trans (moveMarks_work _ _ _)).trans
    ((clipEvent_work _ _ _).trans (lampOn_work _))))) ?_
  exact .of_part rfl

theorem rollDirective_port (s : State) : PortWork s (rollDirective s) := by
  unfold rollDirective
  split
  case h_4 => exact (complete_port _ _ _).after (openClip_port _ _ s)
  all_goals exact complete_port _ _ s

theorem rollLine_port (s : State) : PortWork s (rollLine s) := by
  unfold rollLine
  split
  · exact .refl s
  · exact .of_part (queueWork_part (clipEvent_work _ _ s))
  · exact .of_part (queueWork_part (clipEvent_work _ _ s))
  · exact openClip_port _ _ s

theorem cutDirective_port (s : State) : PortWork s (cutDirective s) := by
  unfold cutDirective
  split
  · exact complete_port _ _ s
  · exact (complete_port _ _ _).after (.of_part (queueWork_part (cutClip_work _ s)))

theorem cutLine_port (s : State) : PortWork s (cutLine s) := by
  unfold cutLine
  split
  · exact .refl s
  · exact .of_part (queueWork_part (cutClip_work _ s))

theorem dropRequest_port (n : LineNo) (s : State) : PortWork s (dropRequest n s) := .of_part rfl

theorem takeMark_port (kind : MarkKind) (source : Source) (s : State) : PortWork s (takeMark kind source s) := by
  have listed : ∀ u, PortWork u (markListed u) := fun u =>
    PortWork.trans (t := raise .mark u) (.of_part rfl) (.ite (.of_part rfl) (.refl _))
  have hold : ∀ m, PortWork s (holdMark m s) := fun _ => .ite (.of_part rfl) (.of_part rfl)
  unfold takeMark
  split
  · exact (listed _).after (.of_part rfl)
  · exact .of_part rfl
  · exact (hold _).trans (listed _)
  · exact .of_part rfl

theorem markDirective_port (b : Block) (s : State) : PortWork s (markDirective b s) := by
  unfold markDirective
  split
  · exact complete_port _ _ s
  · exact (complete_port _ _ _).after (takeMark_port _ _ s)

/-! ## Event lines -/

theorem changeSync_port (f : SyncCapture → SyncCapture) (s : State) : PortWork s (changeSync f s) := .of_part rfl

theorem judge_port (r : CaptureResult) (s : State) : PortWork s (judge r s) :=
  (raiseIf_port _ _ _).after (changeSync_port _ s)

theorem changeLine_port (n : LineNo) (time : Nat) (before after : Line) (s : State) :
    PortWork s (changeLine n time before after s) := by
  have hand : ∀ level u, PortWork u (handEdge n after level time u) := fun level u => by
    unfold handEdge
    split
    · exact .refl u
    case h_6 =>
      unfold syncEdge
      split
      · exact (judge_port _ _).after (changeSync_port _ u)
      · exact .refl u
    all_goals exact .of_part rfl
  have changed : PortWork s { s with lines := { s.lines with
      lines := changeAt (fun _ => after) n.val s.lines.lines } } := .of_part rfl
  exact .ite ((changed.trans (raiseIf_port true (.line n) _)).trans (hand _ _)) changed

/-! ## Engine reset -/

/-- The writers keep their segments at the beginning of an engine reset, and the port its burst (R142, R189). -/
theorem resetWriters_port (s : State) : PortWork s (resetWriters s) := by
  refine ⟨rfl, fun granted r port => ?_, segmentsSound_of_part ?_⟩
  · have carried := granted r port
    have port : s.arbiter.port = some r := port
    cases r <;> simpa [resetWriters, Arbiter.cleared, Quad.get, port] using carried
  · simp only [segmentPart, resetWriters, Prod.mk.injEq]
    refine ⟨funext fun st => ?_, ?_⟩
    · cases st <;> rfl
    · rw [List.map_map]
      rfl

theorem beginReset_port (s : State) : PortWork s (beginReset s) := by
  have first : PortWork s (resetClips (resetPictures s)) := .of_part rfl
  have walker : ∀ u, PortWork u (resetWalker u) := fun u => changeWalker_port _ u
  have sync : ∀ u, PortWork u (resetSync u) := fun u => (raiseIf_port _ _ _).after (.of_part rfl)
  exact ((first.trans (resetWriters_port _)).trans (walker _)).trans (sync _)

theorem completeReset_port (s : State) : PortWork s (completeReset s) := by
  refine .of_part ?_
  simp only [portPart, segmentPart, completeReset, Prod.mk.injEq]
  refine ⟨rfl, rfl, rfl, funext fun st => ?_, rfl⟩
  cases st <;> rfl

/-! ## Pictures -/

theorem runCoders_port (s : State) : PortWork s (runCoders s) := .of_part (coderWork_part (runCoders_work s))

theorem endMalformed_port (a : Arrival) (i : Nat) (s : State) : PortWork s (endMalformed a i s) :=
  PortWork.trans (t := reportFault ⟨.frameMalformed, .pictureIntake, none, some a.frame, none⟩ _)
    ((reportFault_port _ _).after (.of_part rfl)) (.of_part rfl)

theorem endUnmarked_port (s : State) : PortWork s (endUnmarked s) := by
  unfold endUnmarked
  split
  · exact .refl s
  · split
    · exact .of_part rfl
    · exact (runCoders_port _).after (endMalformed_port _ _ s)

theorem loseFrame_port (a : Arrival) (s : State) : PortWork s (loseFrame a s) :=
  PortWork.trans (t := reportFault ⟨.frameLost, .pictureIntake, none, some a.frame, none⟩ _)
    ((reportFault_port _ _).after (.of_part rfl)) (.of_part rfl)

theorem startFrame_port (s : State) : PortWork s (startFrame s) := by
  unfold startFrame
  dsimp only
  split
  · exact .of_part rfl
  · exact (runCoders_port _).after ((loseFrame_port _ _).after (.of_part rfl))

theorem countWait_port (s : State) : PortWork s (countWait s) := by
  unfold countWait
  split
  · exact .ite (complete_port _ _ s) (.of_part rfl)
  · exact .refl s

theorem reportStart_port (x : Frame) (time : Nat) (s : State) : PortWork s (reportStart x time s) := by
  have missing : ∀ u, PortWork u (countMissing u) := fun u =>
    .ite (changeSync_port _ u) ((judge_port _ _).after (changeSync_port _ u))
  have sync : ∀ u, PortWork u (syncStart time u) := fun u =>
    .ite ((missing _).after (changeSync_port _ u)) (changeSync_port _ u)
  have owed : ∀ u, PortWork u (oweRewrite u) := fun _ => .of_part rfl
  exact (((countWait_port _).after (owed _)).after (sync _)).after (.of_part rfl)

theorem joined_port (e : Entry) (i : Nat) (s : State) : PortWork s (releaseSlot i (join e s)) :=
  .of_part (coderWork_part ((join_coders e s).trans (releaseSlot_work i _)))

theorem completeMaster_port (p : MasterPicture) (size tag : Nat) (s : State) :
    PortWork s (completeMaster p size tag s) := by
  have idle : ∀ u : State, PortWork u { u with master := { u.master with picture := none } } := fun _ => .of_part rfl
  exact PortWork.after (.of_part (coderWork_part (runMaster_work _ _))) ((idle _).after (joined_port _ _ s))

theorem endAttempt_port (payload : Nat) (s : State) : PortWork s (endAttempt payload s) := by
  unfold endAttempt
  split
  · exact .refl s
  · refine .ite ?_ ((completeMaster_port _ _ _ _).after (.of_part rfl))
    split
    · exact .of_part rfl
    · exact (completeMaster_port _ _ _ _).after (.of_part rfl)

theorem endProxyCoding_port (payload : Nat) (s : State) : PortWork s (endProxyCoding payload s) := by
  unfold endProxyCoding
  split
  · exact .refl s
  · have idle : ∀ u : State, PortWork u { u with proxy := { u.proxy with picture := none } } := fun _ => .of_part rfl
    exact PortWork.after (.of_part (coderWork_part (runProxy_work _ _)))
      ((idle _).after ((joined_port _ _ _).after (.of_part rfl)))

theorem resumeLoad_port (n : Nat) (s : State) : PortWork s (resumeLoad n s) := by
  unfold resumeLoad
  split
  · exact .refl s
  · exact .ite (requestSource_port _ _ s) (.refl s)

end Sys2Proof.Proofs
end

section
/-! SUPPORT. Every command: an answer of the port, if it is one, then the blocks' work, then settling; so what every step
keeps of the segments and of the port, and where shared memory changes. -/

namespace Sys2Proof.Proofs

open Sys2Proof.Machine Sys2Proof.Laws

/-! ## The answers of the port -/

/-- The state in which the blocks act on a command: `s` itself, or `s` with the burst on the port ended by the command. -/
inductive ActsFrom (c : Instr) (s : State) : State → Prop
  | here : ActsFrom c s s
  | ended {r : Requester} {b : Burst} : c ≠ .burstError → s.arbiter.port = some r → s.arbiter.bursts.get r = some b →
      ActsFrom c s (endBurst r b s)
  | failed {r : Requester} {b : Burst} : c = .burstError → s.arbiter.port = some r → s.arbiter.bursts.get r = some b →
      ActsFrom c s (dropBurst r (freePort { s with shared := forgetBytes s.shared b.address b.data.length }))

/-- What a command can do: leave the port, shared memory and the segments as they are; or the blocks work, from the
state in which the command's answer leaves the port, and all settles. -/
inductive Commands (c : Instr) (s : State) : State → Prop
  | rests {t : State} : portPart t = portPart s → Commands c s t
  | settles {u v : State} : ActsFrom c s u → PortWork u v → Commands c s (settle v)

theorem Commands.works {c : Instr} {s v : State} (work : PortWork s v) : Commands c s (settle v) := .settles .here work

theorem Commands.ite {c : Instr} {s t u : State} {p : Prop} [Decidable p] (h : Commands c s t) (k : Commands c s u) :
    Commands c s (if p then t else u) := by
  split
  · exact h
  · exact k

theorem Commands.ite_settle {c : Instr} {s t u : State} {p : Prop} [Decidable p] (h : PortWork s t)
    (k : PortWork s u) : Commands c s (settle (if p then t else u)) := .works (.ite h k)

theorem takeDirective_commands {c : Instr} {act : Block → State → State} (h : ∀ b s, PortWork s (act b s))
    (kind : DirectiveKind) (s : State) : Commands c s (takeDirective kind act s) := by
  unfold takeDirective
  split
  · exact .rests rfl
  · exact .works (h _ s)

theorem answerOk_commands {c : Instr} (ok : c ≠ .burstError) {act : Burst → State → State}
    (h : ∀ b s, PortWork s (act b s)) (r : Requester) (kind : BurstKind) (s : State) :
    Commands c s (answerOk r kind act s) := by
  unfold answerOk
  split
  · exact .rests rfl
  · next b found =>
    obtain ⟨port, burst, -⟩ := onPort_some found
    exact .settles (.ended ok port burst) (.ite (.refl _) (h b _))

theorem portBurst_some {r : Requester} {b : Burst} {s : State} (h : s.portBurst = some (r, b)) :
    s.arbiter.port = some r ∧ s.arbiter.bursts.get r = some b := by
  unfold State.portBurst at h
  obtain ⟨q, port, found⟩ := Option.bind_eq_some_iff.mp h
  obtain ⟨b', burst, same⟩ := Option.map_eq_some_iff.mp found
  cases same
  exact ⟨port, burst⟩

/-- A RETRY only frees the port, before its requester acts (R138). -/
theorem answerRetry_commands {c : Instr} (s : State) : Commands c s (answerRetry s) := by
  unfold answerRetry
  split
  · exact .rests rfl
  · next r b _ =>
    have dropped : PortWork s (dropBurst r (freePort (countRetry s))) := ⟨rfl, nofun, segmentsSound_of_part rfl⟩
    have waits : PortWork s (waitAgain r (countRetry s)) := ⟨rfl, nofun, segmentsSound_of_part rfl⟩
    exact .works (.ite dropped (.ite (dropped.trans (burstFailed_port r _ b _)) waits))

theorem answerError_commands (s : State) : Commands .burstError s (answerError s) := by
  unfold answerError
  split
  · exact .rests rfl
  · next r b found =>
    obtain ⟨port, burst⟩ := portBurst_some found
    exact .settles (.failed rfl port burst) (.ite (.refl _) (burstFailed_port r _ b _))

theorem writerBurstDone_commands {c : Instr} (ok : c ≠ .burstError) (s : State) :
    Commands c s (writerBurstDone s) := by
  unfold writerBurstDone
  split
  · exact .rests rfl
  · exact answerOk_commands ok (fun _ u => writerAdvanced_port _ _ u) _ _ s

/-! ## The commands that settle in some states only -/

section
variable {c : Instr} (s : State)

theorem takeResume_commands : Commands c s (takeResume s) := by
  unfold takeResume
  split
  · exact .works ((actOn_port _ _).after (changeWalker_port _ s))
  · exact .rests rfl

theorem takeHalt_commands : Commands c s (takeHalt s) := by
  unfold takeHalt
  split <;> exact .rests rfl

theorem takeStop_commands : Commands c s (takeStop s) := by
  unfold takeStop
  split
  · split
    · exact .works ((complete_port _ _ _).after ((withdrawFlight_port _ _).after (changeWalker_port _ s)))
    · exact .rests rfl
  · exact .rests rfl
  · exact .works ((endChain_port _).after (changeWalker_port _ s))
  all_goals exact .rests rfl

theorem takeFreeze_commands (level : Bool) : Commands c s (takeFreeze level s) := by
  have withdrawn : PortWork s (if rewriteWaits s then withdrawBurst .page s else s) :=
    .ite (withdrawBurst_port _ s) (.refl s)
  exact .ite (.rests rfl) (.ite_settle (withdrawn.trans (.of_part rfl)) (.of_part rfl))

theorem engineReset_commands : Commands c s (engineReset s) :=
  .ite (.rests rfl) (.ite_settle ((completeReset_port _).after (beginReset_port s)) (beginReset_port s))

theorem engineResetComplete_commands : Commands c s (engineResetComplete s) :=
  .ite (.works (completeReset_port s)) (.rests rfl)

theorem gapExpired_commands (st : Stream) : Commands c s (gapExpired st s) :=
  .ite (.works (putWriter_port rfl rfl)) (.rests rfl)

theorem intakeDrained_commands : Commands c s (intakeDrained s) :=
  .ite (.ite_settle ((complete_port _ _ _).after (.of_part rfl)) (.of_part rfl)) (.rests rfl)

theorem takeRoll_commands (source : Source) : Commands c s (takeRoll source s) := by
  cases source with
  | directive => exact .ite (.works (rollDirective_port s)) (.rests rfl)
  | line n => exact .ite (.works ((rollLine_port _).after (dropRequest_port n s))) (.rests rfl)

theorem takeCut_commands (source : Source) : Commands c s (takeCut source s) := by
  cases source with
  | directive => exact .ite (.works (cutDirective_port s)) (.rests rfl)
  | line n => exact .ite (.works ((cutLine_port _).after (dropRequest_port n s))) (.rests rfl)

theorem takeToggle_commands (n : LineNo) : Commands c s (takeToggle n s) :=
  .ite (.works (PortWork.after (.ite (cutLine_port _) (rollLine_port _)) (dropRequest_port n s))) (.rests rfl)

theorem takeMarkFrom_commands (source : Source) : Commands c s (takeMarkFrom source s) := by
  unfold takeMarkFrom
  split
  · split
    · exact .rests rfl
    · exact .works (markDirective_port _ s)
  · split
    · exact .works ((takeMark_port _ _ _).after (dropRequest_port _ s))
    · exact .rests rfl

theorem rawChange_commands (n : LineNo) (drive : Option Level) (time : Nat) :
    Commands c s (rawChange n drive time s) := by
  unfold rawChange
  split
  · exact .rests rfl
  · exact .works (changeLine_port _ _ _ _ s)

theorem filterExpired_commands (n : LineNo) (time : Nat) : Commands c s (filterExpired n time s) := by
  unfold filterExpired
  split
  · exact .rests rfl
  · exact .ite (.works (changeLine_port _ _ _ _ s)) (.rests rfl)

theorem blinkExpired_commands : Commands c s (blinkExpired s) := by
  unfold blinkExpired
  split <;> exact .rests rfl

theorem writeNotice_commands (v : BitVec 32) : Commands c s (writeNotice v s) := .ite (.rests rfl) (.rests rfl)

theorem activityReady_commands : Commands c s (activityReady s) := by
  unfold activityReady
  split
  · exact .rests rfl
  · exact .works ((resumeLoad_port _ _).after (.of_part rfl))

theorem curveReady_commands : Commands c s (curveReady s) := by
  unfold curveReady
  split
  · exact .rests rfl
  · exact .works ((resumeLoad_port _ _).after (.of_part rfl))

theorem frameStart_commands (time : Nat) : Commands c s (frameStart time s) := by
  unfold frameStart
  split
  · exact .rests rfl
  · exact .works (endUnmarked_port s)
  · exact .works ((reportStart_port _ _ _).after ((startFrame_port _).after (endUnmarked_port s)))

theorem takeLine_commands (pixels : List Pixel) (check : BitVec 16) : Commands c s (takeLine pixels check s) := by
  unfold takeLine
  split
  · exact .rests rfl
  · exact .rests rfl
  · split <;> exact .rests rfl

theorem frameEnd_commands : Commands c s (frameEnd s) := by
  unfold frameEnd
  split
  · exact .rests rfl
  · exact .rests rfl
  · split
    · exact .rests rfl
    · exact .ite (.works ((runCoders_port _).after (.of_part rfl)))
        (.works ((runCoders_port _).after (endMalformed_port _ _ s)))

end

/-! ## Every command -/

theorem exec_commands {c : Instr} {s t : State} (h : exec c s = .next t) (full : c ≠ .fullReset) : Commands c s t := by
  cases c with
  | fullReset => exact absurd rfl full
  | frameStart time => cases h; exact frameStart_commands s time
  | line pixels check => cases h; exact takeLine_commands s pixels check
  | frameEnd => cases h; exact frameEnd_commands s
  | attemptEnd payload => cases h; exact .works (endAttempt_port payload s)
  | activityTableInitEnd => cases h; exact activityReady_commands s
  | lookCurveInitEnd => cases h; exact curveReady_commands s
  | proxyCodingEnd payload => cases h; exact .works (endProxyCoding_port payload s)
  | entry value => cases h; exact .works (takeEntry_port value s)
  | headerFetchDone bytes => cases h; exact answerOk_commands (by nofun) (fun _ => headerArrived_port bytes) _ _ s
  | bodyFetchDone bytes => cases h; exact answerOk_commands (by nofun) (fun _ => bodyArrived_port _ bytes) _ _ s
  | setup => cases h; exact takeDirective_commands setupDirective_port _ s
  | tune => cases h; exact takeDirective_commands tuneDirective_port _ s
  | lines => cases h; exact takeDirective_commands linesDirective_port _ s
  | loadTable => cases h; exact takeDirective_commands loadDirective_port _ s
  | grant => cases h; exact takeDirective_commands grantDirective_port _ s
  | relinquish => cases h; exact takeDirective_commands relinquishDirective_port _ s
  | startIntake => cases h; exact takeDirective_commands startDirective_port _ s
  | stopIntake => cases h; exact takeDirective_commands stopDirective_port _ s
  | intakeDrained => cases h; exact intakeDrained_commands s
  | roll source => cases h; exact takeRoll_commands s source
  | cut source => cases h; exact takeCut_commands s source
  | mark source => cases h; exact takeMarkFrom_commands s source
  | setTimecode => cases h; exact takeDirective_commands timecodeDirective_port _ s
  | wait => cases h; exact takeDirective_commands waitDirective_port _ s
  | tableSourceReadDone bytes => cases h; exact answerOk_commands (by nofun) (fun _ => sourceArrived_port _ bytes) _ _ s
  | outcomeWriteDone => cases h; exact answerOk_commands (by nofun) (fun _ => outcomeWritten_port) _ _ s
  | refusedSlotWriteDone => cases h; exact answerOk_commands (by nofun) (fun _ => refusedSlotWritten_port) _ _ s
  | walkerReturnedCountDone => cases h; exact answerOk_commands (by nofun) (fun _ => returnedCountWritten_port) _ _ s
  | halt => cases h; exact takeHalt_commands s
  | resume => cases h; exact takeResume_commands s
  | stop => cases h; exact takeStop_commands s
  | freeze level => cases h; exact takeFreeze_commands s level
  | engineReset => cases h; exact engineReset_commands s
  | engineResetComplete => cases h; exact engineResetComplete_commands s
  | notice value => cases h; exact writeNotice_commands s value
  | noticeMask value => cases h; exact .rests rfl
  | ignoredRegisterWrite offset value => cases h; exact .rests rfl
  | pageRewriteDone => cases h; exact answerOk_commands (by nofun) (fun _ => .refl) _ _ s
  | writerBurstDone => cases h; exact writerBurstDone_commands (by nofun) s
  | gapTimerExpiry stream => cases h; exact gapExpired_commands s stream
  | resultSlotBurstDone => cases h; exact answerOk_commands (by nofun) (fun _ => resultSlotWritten_port) _ _ s
  | resultCountBurstDone => cases h; exact answerOk_commands (by nofun) (fun _ => segmentReturned_port) _ _ s
  | burstRetry => cases h; exact answerRetry_commands s
  | burstError => cases h; exact answerError_commands s
  | rawLevelChange n drive time => cases h; exact rawChange_commands s n drive time
  | filterTimerExpiry n time => cases h; exact filterExpired_commands s n time
  | toggle n => cases h; exact takeToggle_commands s n
  | blinkTimerExpiry => cases h; exact blinkExpired_commands s

/-- The port is free after an answer, and the segments are where they were. -/
theorem ActsFrom.granted {c : Instr} {s u : State} (from_ : ActsFrom c s u) (granted : Granted s) : Granted u := by
  cases from_ with
  | here => exact granted
  | ended => exact nofun
  | failed => exact nofun

theorem ActsFrom.segments {c : Instr} {s u : State} (from_ : ActsFrom c s u) : segmentPart u = segmentPart s := by
  cases from_ <;> rfl

/-! ## The statements -/

/-- Settles O10: every operation moves segments from one place to another, and GRANT takes only new ones. -/
theorem stepKeepsSegments : Obligations.StepKeepsSegments := by
  intro s t sound h
  unfold step at h
  split at h
  · cases h
    exact sound
  · next c rest _ =>
    have front : SegmentsSound { s with pending := rest } := segmentsSound_of_part (s := s) rfl sound
    by_cases full : c = .fullReset
    · subst full
      cases h
      obtain ⟨-, -, -, -, -, -, reset, -⟩ := resetMeetsInvariants
      exact segmentsSound_of_part (s := State.reset) rfl reset
    · cases exec_commands h full with
      | rests part => exact (PortWork.of_part part).segments front
      | settles from_ work =>
        exact (settle_port _).segments (work.segments (segmentsSound_of_part from_.segments front))

/-- Settles O11: a command leaves the port as it is, or ends with the arbiter's grant. -/
theorem stepKeepsPort : Obligations.StepKeepsPort := by
  intro s t sound h
  unfold step at h
  split at h
  · cases h
    exact sound
  · next c rest _ =>
    by_cases full : c = .fullReset
    · subst full
      cases h
      obtain ⟨-, -, -, -, -, -, -, reset⟩ := resetMeetsInvariants
      exact ⟨reset.granted, reset.free⟩
    · cases exec_commands h full with
      | rests part =>
        simp only [portPart, Prod.mk.injEq] at part
        obtain ⟨-, port, bursts, -⟩ := part
        exact ⟨by rw [port, bursts]; exact sound.granted, by rw [port, bursts]; exact sound.free⟩
      | settles from_ work => exact settle_portSound (work.granted (from_.granted sound.granted))

/-- A byte that a write changes lies where it writes, and reads what was written. -/
theorem readByte_writeBytes_ne {m : Memory} {start x : Nat} {bytes : List Byte}
    (h : readByte (writeBytes m start bytes) x ≠ readByte m x) :
    start ≤ x ∧ x < start + bytes.length ∧ readByte (writeBytes m start bytes) x = bytes[x - start]? := by
  by_cases outside : x < start ∨ start + bytes.length ≤ x
  · exact absurd (readByte_writeBytes_other m bytes outside) h
  · have inside : start ≤ x ∧ x < start + bytes.length := by omega
    refine ⟨inside.1, inside.2, ?_⟩
    have same := readByte_writeBytes_same m start bytes (k := x - start) (by omega)
    rwa [Nat.add_sub_cancel' inside.1] at same

/-- A byte that becomes unknown lies where the failed burst was to write. -/
theorem readByte_forgetBytes_ne {m : Memory} {start n x : Nat}
    (h : readByte (forgetBytes m start n) x ≠ readByte m x) :
    start ≤ x ∧ x < start + n ∧ readByte (forgetBytes m start n) x = none := by
  rw [readByte_forgetBytes] at h ⊢
  by_cases outside : x < start ∨ start + n ≤ x
  · exact absurd (if_pos outside) h
  · exact ⟨by omega, by omega, if_neg outside⟩

/-- Settles O13: only the end of the burst on the port reaches shared memory. -/
theorem memoryOnlyByBursts : Obligations.MemoryOnlyByBursts := by
  intro c s t a h changed
  by_cases full : c = .fullReset
  · subst full
    cases h
    exact absurd rfl changed
  · cases exec_commands h full with
    | rests part => exact absurd (congrArg (readByte · a) (congrArg Prod.fst part)) changed
    | settles from_ work =>
      rw [(settle_followedBy _).shared, work.shared] at changed ⊢
      cases from_ with
      | here => exact absurd rfl changed
      | ended ok port burst =>
        obtain ⟨low, high, reads⟩ := readByte_writeBytes_ne changed
        exact ⟨_, _, port, burst, low, high, .inr ⟨ok, reads⟩⟩
      | failed error port burst =>
        obtain ⟨low, high, reads⟩ := readByte_forgetBytes_ne changed
        exact ⟨_, _, port, burst, low, high, .inl ⟨error, reads⟩⟩

end Sys2Proof.Proofs
end

section
/-! SUPPORT. The answers to a burst in the words of the statements, and the Page Writer's bursts that end or fail
(R130, R131, R138, R140). -/

namespace Sys2Proof.Proofs

open Sys2Proof.Machine Sys2Proof.Laws

/-- A command settles from `u`, which a statement names as `v`. -/
theorem follows_of_acts {c : Instr} {s u v : State} (command : exec c s = .next (settle u)) (acts : u = v)
    (calm : Calm v) : ∃ t, exec c s = .next t ∧ Follows v t := follows_of_settle (acts ▸ command) calm

/-! ## The answers -/

section
variable {r : Requester} {b : Burst} {s : State}

theorem burstRetry_eq (port : s.arbiter.port = some r) (burst : s.arbiter.bursts.get r = some b) :
    exec .burstRetry s = .next (settle (retried r b s)) := by
  have found : s.portBurst = some (r, b) := by simp [State.portBurst, port, burst]
  exact congrArg Host.Outcome.next (by rw [answerRetry, found])

theorem burstError_eq (port : s.arbiter.port = some r) (burst : s.arbiter.bursts.get r = some b) :
    exec .burstError s = .next (settle (errored r b s)) := by
  have found : s.portBurst = some (r, b) := by simp [State.portBurst, port, burst]
  exact congrArg Host.Outcome.next (by rw [answerError, found])

/-- A burst of the Page Writer, or one whose work no engine reset has cleared, is no orphan. -/
theorem orphan_false (h : r = .page ∨ s.arbiter.resetBurst = false) : s.orphan r = false := by
  rcases h with rfl | h
  · exact Bool.and_false _
  · rw [State.orphan, h, Bool.false_and]

/-- A RETRY below the limit: the burst waits again (R138). -/
theorem burstRetry_waits (port : s.arbiter.port = some r) (burst : s.arbiter.bursts.get r = some b)
    (owned : s.orphan r = false)
    (below : s.writers.retry = 0 ∨ s.arbiter.attempts.get r + 1 < 64 * s.writers.retry) :
    exec .burstRetry s = .next (settle (waitAgain r (countRetry s))) := by
  have under : reachesLimit s.writers.retry (s.arbiter.attempts.get r + 1) = false := by
    rcases below with off | below
    · simp [reachesLimit, off]
    · simp [reachesLimit, below]
  rw [burstRetry_eq port burst, retried]
  simp [owned, under]

/-- A burst that fails, by ERROR or at the limit: its requester acts with the port free (R138). -/
theorem failing_eq {limit : Bool} (port : s.arbiter.port = some r) (burst : s.arbiter.bursts.get r = some b)
    (owned : s.orphan r = false) (fails : Fails limit r s) :
    exec (failing limit) s = .next (settle (burstFailed r (failure limit) b (portFailed limit r b s))) := by
  cases limit with
  | false =>
    refine (burstError_eq port burst).trans ?_
    rw [errored]
    simp only [owned]
    rfl
  | true =>
    obtain ⟨on, past⟩ := fails rfl
    have reached : reachesLimit s.writers.retry (s.arbiter.attempts.get r + 1) = true := by
      simp [reachesLimit, on, past]
    refine (burstRetry_eq port burst).trans ?_
    rw [retried]
    simp only [owned, reached]
    rfl

/-- A burst of the Page Writer that ends OK, under an engine reset as without one (R142). -/
theorem answerOk_page (act : Burst → State → State) (port : s.arbiter.port = some .page)
    (burst : s.arbiter.bursts.page = some b) :
    answerOk .page b.kind act s = settle (act b (portEnded .page b s)) := by
  have held : s.arbiter.bursts.get .page = some b := burst
  simp [answerOk, State.onPort, State.inProgress, State.orphan, port, held, endBurst_eq, Option.filter]

end

/-! ## The Page Writer's burst under settling -/

/-- A Page Writer's burst that is no rewrite stays as it is while all settles (R185, R187). -/
theorem settle_pageBurst {s : State} {b : Burst} (calm : Calm s) (burst : s.arbiter.bursts.page = some b)
    (kind : b.kind ≠ .rewrite) : (settle s).arbiter.bursts.page = some b := by
  obtain ⟨master, proxy, going, drained⟩ := calm
  have one := settleWriter_one .master s master going
  have other : (settleWriter .master s).writer .proxy = s.writer .proxy := one.other
  have two := settleWriter_one .proxy (settleWriter .master s) (by rw [other]; exact proxy)
    (by rw [one.walker]; exact going)
  have idle : testDrained (settleWriter .proxy (settleWriter .master s))
      = settleWriter .proxy (settleWriter .master s) := by
    have flight : (settleWriter .proxy (settleWriter .master s)).flight = s.flight := by
      simp only [State.flight, two.walker, one.walker]
    simp [testDrained, flight, drained]
  unfold settle
  rw [idle]
  generalize settled : settleWriter .proxy (settleWriter .master s) = v at two
  have kept : v.arbiter.bursts.page = some b :=
    (two.bursts .page (by decide)).1.trans ((one.bursts .page (by decide)).1.trans burst)
  have asked : pageRequest v = v := by simp [pageRequest, kept]
  have begun : rewriteWaits v = false := by simp [rewriteWaits, kept, kind]
  rw [asked]
  obtain ⟨-, -, -, grant⟩ := grantPort_acts v
  rcases grant with ⟨-, same, -⟩ | ⟨-, -, waits, -⟩
  · rw [same, kept]
  · rw [begun] at waits
    cases waits

/-! ## Results -/

theorem returnedCount_eq (s : State) (block slots : Nat) : s.returnedCount block slots
    = ((s.writers.grants.find? fun g => g.block == block).map GrantRecord.returned).getD slots := by
  unfold State.returnedCount
  cases s.writers.grants.find? fun g => g.block == block <;> rfl

/-- The segment of the oldest result is returned, and no RELINQUISH counts it (R130). -/
theorem segmentReturned_uncounted {s : State} {r : Result} {rest : List Result} (results : s.page.results = r :: rest)
    (uncounted : r.counted = false) : segmentReturned s = raise (.returned r.stream) { s with
      writers := { s.writers with grants := s.writers.grants.filter fun g => g.returned != g.slots }
      page := { s.page with results := rest } } := by
  simp only [segmentReturned, results, countRelinquished, uncounted]
  rfl

/-- Settles O36, by the kind of the burst that ends. -/
theorem resultsReturn : Obligations.ResultsReturn := by
  intro s b r rest calm port burst results
  refine ⟨fun kind => ?_, fun kind uncounted => ?_⟩
  · intro grants count
    have wrote : resultSlotWritten (portEnded .page b s) = requestBurst .page
        (countBurst r.segment.block (countReturned r.segment.block (portEnded .page b s)))
        (countReturned r.segment.block (portEnded .page b s)) := by
      have results : (portEnded .page b s).page.results = r :: rest := results
      simp [resultSlotWritten, results]
    have command : exec .resultSlotBurstDone s = .next (settle (resultSlotWritten (portEnded .page b s))) :=
      congrArg Host.Outcome.next (kind ▸ answerOk_page (fun _ => resultSlotWritten) port burst)
    rw [wrote] at command
    have calmed : Calm (requestBurst .page
        (countBurst r.segment.block (countReturned r.segment.block (portEnded .page b s)))
        (countReturned r.segment.block (portEnded .page b s))) := calm
    have follows := settle_follows _ calmed
    refine ⟨_, command, follows.grants, ?_, follows.results, follows.shared,
      ⟨follows.intake.intake, follows.intake.slots, follows.intake.inputs⟩,
      ⟨follows.coders.master, follows.coders.proxy, follows.coders.governor, follows.coders.freeTag⟩,
      ⟨follows.records.queue, follows.records.clips⟩, ⟨follows.log.log, follows.log.later⟩, follows.lines,
      follows.walker, follows.raises⟩
    refine (settle_pageBurst calmed rfl nofun).trans ?_
    rw [countBurst, returnedCount_eq]
    rfl
  · have command : exec .resultCountBurstDone s = .next (settle (segmentReturned (portEnded .page b s))) :=
      congrArg Host.Outcome.next (kind ▸ answerOk_page (fun _ => segmentReturned) port burst)
    rw [segmentReturned_uncounted (s := portEnded .page b s) results uncounted] at command
    exact follows_of_settle command calm

/-- Settles O37: the answer counts, and then the burst waits again or its rewrite fails. -/
theorem retryWaitsOrFails : Obligations.RetryWaitsOrFails := by
  intro s r b calm port burst reset
  refine ⟨fun below => ?_, fun on past page kind => ?_⟩
  · refine follows_of_settle ((burstRetry_waits port burst (orphan_false (.inr reset)) below).trans ?_) calm
    simp only [waitAgain, freePort, countRetry, countUp, countMax, ← reset]
  · subst page
    have command := failing_eq (limit := true) port burst (orphan_false (.inl rfl)) fun _ => ⟨on, past⟩
    have failed : burstFailed .page (failure true) b (portFailed true .page b s)
        = reportFault ⟨.retryLimit, .pageWriter, some b.address, none, none⟩ (portFailed true .page b s) := if_pos kind
    refine follows_of_acts command (failed.trans ?_) calm
    simp only [portFailed, ← reset]
    rfl

end Sys2Proof.Proofs
end

section
/-! SUPPORT. A STOP request (R171), and GRANT's slots, list and writes (R119 to R121). -/

namespace Sys2Proof.Proofs

open Sys2Proof.Machine Sys2Proof.Laws

/-! ## Chains that end with no entry pending -/

theorem endChain_idle {s : State} (empty : s.walker.pendingEntry = none) :
    endChain s = raise .chain { s with walker := { s.walker.cleared with haltRequest := false } } := by
  have told : (raise .chain s).walker.pendingEntry = none := empty
  simp only [endChain, told]
  rfl

/-! ## STOP -/

theorem stop_waiting {s : State} {f : Flight} {b : Block} (state : s.walker.state = .waiting) (flies : FliesAs f b s) :
    exec .stop s
      = .next (settle (complete .abandoned (abandonedDetail f s) (withdrawFlight f (goStopping s)))) := by
  refine congrArg Host.Outcome.next ?_
  simp only [takeStop, state, flight_eq flies]

/-- Settles O48, by the walker's state and the directive in flight. -/
theorem stopRequested : Obligations.StopRequested := by
  refine ⟨fun s => ?_, fun s st b r waiting flies hand other => ?_⟩
  · intro stopping
    refine ⟨fun none_ => ?_, fun walking => ?_, fun calm halted => ?_, fun f b idle waiting flies => ⟨fun intake => ?_, ?_⟩⟩
    · refine congrArg Host.Outcome.next ?_
      rcases none_ with state | state | state <;> simp [takeStop, state]
    · refine congrArg Host.Outcome.next ?_
      simp only [takeStop, walking]
      rfl
    · have command : exec .stop s
          = .next (settle (endChain (changeWalker (fun w => { w with pendingEntry := none }) s))) := by
        refine congrArg Host.Outcome.next ?_
        simp only [takeStop, halted]
      exact follows_of_acts command (endChain_idle rfl) ⟨calm.1, calm.2.1, nofun, nofun⟩
    · intro master proxy
      have block : (goStopping s).walker.block = some b := flies.1
      have detail : abandonedDetail f s = 0 := by
        cases f with
        | relinquish st => cases st <;> contradiction
        | _ => rfl
      have withdrawn : withdrawFlight f (goStopping s) = goStopping s := by
        cases f with
        | stopIntake => contradiction
        | relinquish st => cases st <;> contradiction
        | _ => rfl
      refine follows_of_acts (stop_waiting waiting flies) ?_ (calm_answered .abandoned 0 b (idle .master) (idle .proxy))
      rw [withdrawn, detail, complete_eq _ _ block]
      rfl
    · rintro rfl intake
      have withdrawn : withdrawFlight .stopIntake (goStopping s)
          = { stopping with intake := { s.intake with state := .running } } := if_pos intake
      have block : { stopping with intake := { s.intake with state := .running } }.walker.block = some b := flies.1
      refine follows_of_acts (stop_waiting waiting flies) ?_ (calm_answered .abandoned 0 b (idle .master) (idle .proxy))
      rw [withdrawn, ← complete_eq _ _ block]
      rfl
  · have block : (withdrawRelinquish st (goStopping s)).walker.block = some b := flies.1
    have detail : abandonedDetail (.relinquish st) s = r.returned := by simp [abandonedDetail, hand]
    have command := stop_waiting waiting flies
    have gone : ((withdrawRelinquish st (goStopping s)).writer st) = { s.writer st with relinquish := none } :=
      writer_putWriter_same st _ _
    have kept : (withdrawRelinquish st (goStopping s)).writer (otherStream st) = s.writer (otherStream st) :=
      writer_putWriter_other st _ (goStopping s)
    have idle : ∀ o, ((withdrawRelinquish st (goStopping s)).writer o).relinquish = none := fun o => by
      by_cases same : o = st
      · rw [same, gone]
      · obtain rfl : o = otherStream st := by cases st <;> cases o <;> simp_all [otherStream]
        rw [kept, other]
    rw [detail, withdrawFlight, complete_eq _ _ block] at command
    have follows := settle_follows _ (calm_answered .abandoned r.returned b (idle .master) (idle .proxy))
    have writer := follows.writers st
    have answered_ : (answered .abandoned r.returned b (withdrawRelinquish st (goStopping s))).writer st
        = { s.writer st with relinquish := none } := gone
    rw [answered_] at writer
    exact ⟨_, command, writer.relinquish, follows.walker, writer.written, follows.grants,
      ⟨follows.intake.intake, follows.intake.slots, follows.intake.inputs⟩,
      ⟨follows.coders.master, follows.coders.proxy, follows.coders.governor, follows.coders.freeTag⟩,
      ⟨follows.records.queue, follows.records.clips⟩, ⟨follows.log.log, follows.log.later⟩, follows.shared⟩

/-! ## GRANT's slots -/

/-- R120: what becomes of slot `i`, after the segments taken and the slots refused before it. -/
def gradeSlot (b : Block) (held : List Nat) (listed : Nat) (acc : List Segment × List (Nat × Reason)) (i : Nat) :
    List Segment × List (Nat × Reason) :=
  let a := b.field (64 + 32 * i) 8
  let l := b.field (72 + 32 * i) 4
  let formed := a % 4096 = 0 ∧ l % 4096 = 0 ∧ 65536 ≤ l ∧ l ≤ 16777216 ∧ a + l ≤ 2 ^ 48
  if ¬ formed then (acc.1, acc.2 ++ [(i, .refusedForm)])
  else if a ∈ held ∨ a ∈ acc.1.map Segment.start then (acc.1, acc.2 ++ [(i, .refusedDuplicate)])
  else if 48 ≤ listed + acc.1.length then (acc.1, acc.2 ++ [(i, .refusedFull)])
  else (acc.1 ++ [⟨a, l, b.address, i⟩], acc.2)

theorem slotForm_iff (g : GrantSlot) : slotForm g = true ↔
    g.address % 4096 = 0 ∧ g.length % 4096 = 0 ∧ 65536 ≤ g.length ∧ g.length ≤ 16777216
      ∧ g.address + g.length ≤ 2 ^ 48 := by
  simp only [slotForm, Bool.and_eq_true, beq_iff_eq, decide_eq_true_eq]
  omega

/-- A slot is graded by its form and address, then by what is held or taken before it, then by the list's room. -/
theorem gradeSlot_eq (b : Block) {held held' : List Nat} {listed : Nat} {acc : List Segment × List (Nat × Reason)}
    (known : ∀ a, a ∈ held' ↔ a ∈ held ∨ a ∈ acc.1.map Segment.start) (i : Nat) : gradeSlot b held listed acc i =
      match slotRefusal held' (listed + acc.1.length) (b.grantSlot i) with
      | some reason => (acc.1, acc.2 ++ [(i, reason)])
      | none => (acc.1 ++ [⟨(b.grantSlot i).address, (b.grantSlot i).length, b.address, i⟩], acc.2) := by
  have form := slotForm_iff (b.grantSlot i)
  have dup : held'.contains (b.grantSlot i).address = true
      ↔ (b.grantSlot i).address ∈ held ∨ (b.grantSlot i).address ∈ acc.1.map Segment.start := by
    rw [List.contains_iff_mem, known]
  rw [Block.grantSlot] at form dup ⊢
  unfold gradeSlot slotRefusal
  dsimp only at form dup ⊢
  simp only [← form, ← dup]
  by_cases formed : slotForm ⟨b.field (64 + 32 * i) 8, b.field (72 + 32 * i) 4⟩ = true
  · by_cases held_ : b.field (64 + 32 * i) 8 ∈ held'
    · simp [formed, held_]
    · by_cases full : 48 ≤ listed + acc.1.length
      · simp [formed, held_, full]
      · simp [formed, held_, full]
  · simp [formed]

theorem foldl_gradeSlot (b : Block) (held : List Nat) (listed left i : Nat)
    (acc : List Segment × List (Nat × Reason)) {held' : List Nat}
    (known : ∀ a, a ∈ held' ↔ a ∈ held ∨ a ∈ acc.1.map Segment.start) :
    (List.range' i left).foldl (gradeSlot b held listed) acc =
      (acc.1 ++ (gradeSlots b left i held' (listed + acc.1.length)).1,
        acc.2 ++ (gradeSlots b left i held' (listed + acc.1.length)).2) := by
  induction left generalizing i acc held' with
  | zero => simp [gradeSlots]
  | succ left ih =>
    rw [List.range'_succ, List.foldl_cons, gradeSlot_eq b known]
    unfold gradeSlots
    dsimp only
    split
    case h_1 reason graded =>
      rw [ih (i + 1) (acc.1, acc.2 ++ [(i, reason)]) known]
      simp [graded]
    case h_2 graded =>
      have grown : ∀ a, a ∈ (b.grantSlot i).address :: held' ↔ a ∈ held ∨ a ∈ (acc.1 ++
          [(⟨(b.grantSlot i).address, (b.grantSlot i).length, b.address, i⟩ : Segment)]).map Segment.start := fun a => by
        simp [known, or_comm, or_left_comm]
      rw [ih (i + 1) _ grown]
      simp [graded, Nat.add_assoc]

theorem gradeSlots_eq (b : Block) (n : Nat) (held : List Nat) (listed : Nat) :
    (List.range n).foldl (gradeSlot b held listed) ([], []) = gradeSlots b n 0 held listed := by
  rw [List.range_eq_range', foldl_gradeSlot b held listed n 0 ([], []) (held' := held) (by simp)]
  simp

/-! ## GRANT -/

theorem putSegments_eq (st : Stream) (l : List Segment) (s : State) :
    let below := decide (s.writers.watermark ≠ 0 ∧ l.length < s.writers.watermark)
    putSegments st l s = raiseIf (below && !(s.writer st).belowWatermark) (.low st)
      (putWriter st { s.writer st with segments := l, belowWatermark := below } s) := by
  have below : (s.writers.watermark != 0 && decide (l.length < s.writers.watermark))
      = decide (s.writers.watermark ≠ 0 ∧ l.length < s.writers.watermark) := by
    by_cases off : s.writers.watermark = 0 <;> simp [off]
  simp only [putSegments, refreshBelow, writer_putWriter_same, putWriter_putWriter]
  rw [← below]
  rfl

/-- The walker asks for its next write of a GRANT (R121). -/
theorem requestGrantWrite_eq {b c : Block} {s : State} (block : s.walker.block = some c) 
    (refused : Nat) (left : List (Nat × Reason)) : requestGrantWrite b refused left s =
      walkerAsks
        (match left with
          | (i, reason) :: _ => ⟨.refusedSlot, b.address + 76 + 32 * i, 15,
              List.replicate 12 0 ++ [BitVec.ofNat 8 reason.code, 0, 1]⟩
          | [] => ⟨.walkerCount, b.address + 34, 1, [BitVec.ofNat 8
              (((s.writers.grants.find? fun g => g.block == b.address).map GrantRecord.returned).getD (b.u8 33))]⟩)
        (match left with
          | [] => .count refused
          | _ :: _ => .slots refused left) c s := by
  cases left with
  | nil =>
    simp only [requestGrantWrite, returnedCount_eq]
    simp [putStage, changeBlock, changeWalker, requestBurst, walkerAsks, block, Quad.set, leBytes]
  | cons slot rest =>
    obtain ⟨i, reason⟩ := slot
    have start : resultAddress b.address i = b.address + 76 + 32 * i := by
      unfold resultAddress
      omega
    have bytes : resultBytes 0 0 0 0 reason false = List.replicate 12 0 ++ [BitVec.ofNat 8 reason.code, 0, 1] := rfl
    simp only [requestGrantWrite, start, bytes]
    simp [putStage, changeBlock, changeWalker, requestBurst, walkerAsks, block, Quad.set]

theorem writers_raiseIf (b : Bool) (n : Notice) (s : State) : (raiseIf b n s).writers = s.writers := by
  cases b <;> rfl

/-- What a GRANT whose slots are graded leaves before its writes: the list, its below-watermark flag and the
record (R118, R120, R124). -/
def slotsTaken (b : Block) (st : Stream) (graded : List Segment × List (Nat × Reason)) (s : State) : State :=
  let w := s.writer st
  let below := decide (s.writers.watermark ≠ 0 ∧ w.segments.length + graded.1.length < s.writers.watermark)
  raiseIf (below && !w.belowWatermark) (.low st)
    { s with writers := { s.writers with
      streams := s.writers.streams.set { w with segments := w.segments ++ graded.1, belowWatermark := below } st
      grants := grantsAfter b st graded.2.length s.writers.grants } }

theorem slotsTaken_eq (b : Block) (st : Stream) (graded : List Segment × List (Nat × Reason)) (s : State) :
    let listed := putSegments st ((s.writer st).segments ++ graded.1) s
    { listed with writers := { listed.writers with
      grants := grantsAfter b st graded.2.length listed.writers.grants } } = slotsTaken b st graded s := by
  have record (u : State) : raise (.low st) { u with writers := { u.writers with
      grants := grantsAfter b st graded.2.length u.writers.grants } }
    = { raise (.low st) u with writers := { (raise (.low st) u).writers with
      grants := grantsAfter b st graded.2.length (raise (.low st) u).writers.grants } } := rfl
  simp only [putSegments_eq, slotsTaken, List.length_append]
  exact (raiseIf_comm (f := fun u => { u with writers := { u.writers with
    grants := grantsAfter b st graded.2.length u.writers.grants } }) record _ _).symm

section
variable {b : Block} {st : Stream} {graded : List Segment × List (Nat × Reason)} {s : State}

@[simp] theorem slotsTaken_walker : (slotsTaken b st graded s).walker = s.walker := walker_raiseIf _ _ _

@[simp] theorem slotsTaken_grants :
    (slotsTaken b st graded s).writers.grants = grantsAfter b st graded.2.length s.writers.grants := by
  simp only [slotsTaken, writers_raiseIf]

@[simp] theorem slotsTaken_relinquish (o : Stream) :
    ((slotsTaken b st graded s).writer o).relinquish = (s.writer o).relinquish := by
  rw [slotsTaken, writer_raiseIf]
  cases st <;> cases o <;> rfl

/-- GRANT taken under a block that has no record: its writes begin, the returned count being 0 where they begin with
it (R121). -/
theorem grantTaken_eq (block : s.walker.block = some b) (slots : b.u8 33 ≠ 0)
    (fresh : b.address ∉ s.writers.grants.map GrantRecord.block)
    (grade : gradeSlots b (b.u8 33) 0 s.heldStarts (s.writer st).segments.length = graded) :
    grantTaken b st s = walkerAsks
      (match graded.2 with
        | (i, reason) :: _ => ⟨.refusedSlot, b.address + 76 + 32 * i, 15,
            List.replicate 12 0 ++ [BitVec.ofNat 8 reason.code, 0, 1]⟩
        | [] => ⟨.walkerCount, b.address + 34, 1, [0]⟩)
      (if graded.2.length = 0 then .count 0 else .slots graded.2.length graded.2)
      { b with granted := true } (slotsTaken b st graded s) := by
  have unknown : (s.writers.grants.find? fun g => g.block == b.address) = none := by
    rw [List.find?_eq_none]
    intro g mem same
    exact fresh (List.mem_map.2 ⟨g, mem, by simpa using same⟩)
  let granted := fun c : Block => { c with granted := true }
  have marked : (changeBlock granted (slotsTaken b st graded s)).walker.block = some { b with granted := true } := by
    simp [changeBlock, changeWalker, block, granted]
  have command : grantTaken b st s
      = requestGrantWrite b graded.2.length graded.2 (changeBlock granted (slotsTaken b st graded s)) := by
    rw [← slotsTaken_eq, ← grade]
    rfl
  rw [command, requestGrantWrite_eq marked]
  obtain ⟨taken, refused⟩ := graded
  cases refused with
  | cons slot rest => rfl
  | nil =>
    have grants : (changeBlock granted (slotsTaken b st (taken, []) s)).writers.grants
        = s.writers.grants ++ [⟨b.address, st, b.u8 33, 0⟩] := by
      refine slotsTaken_grants.trans ?_
      simp [grantsAfter, slots.symm]
    simp only [grants, List.find?_append, unknown, Option.none_or, List.find?_cons, beq_self_eq_true]
    rfl

end

theorem streamOfCode_eq {code : Nat} {st : Stream} (h : code = match st with | .master => 0 | .proxy => 1) :
    streamOfCode code = some st := by
  cases st <;> exact h ▸ rfl

theorem streamOfCode_bad {code : Nat} (h : 1 < code) : streamOfCode code = none := by
  match code, h with
  | _ + 2, _ => rfl

section
variable {b : Block} {s : State}

theorem grantDirective_range (bad : 1 < b.u8 32 ∨ b.u8 33 = 0 ∨ 8 < b.u8 33 ∨ b.u8 33 + 2 ≠ b.units) :
    grantDirective b s = complete .range 0 s := by
  by_cases off : 1 < b.u8 32
  · simp only [grantDirective, grantChecked, streamOfCode_bad off]
  · have slots : b.u8 33 = 0 ∨ 8 < b.u8 33 ∨ b.u8 33 ≠ b.units - 2 := by omega
    obtain ⟨st, known⟩ : ∃ st, streamOfCode (b.u8 32) = some st := by
      obtain zero | one : b.u8 32 = 0 ∨ b.u8 32 = 1 := by omega
      · exact ⟨.master, streamOfCode_eq zero⟩
      · exact ⟨.proxy, streamOfCode_eq one⟩
    simp only [grantDirective, grantChecked, known, if_pos slots]

/-- A GRANT in range is taken, unless its block has a grant record (R119). -/
theorem grantDirective_inRange {st : Stream} (named : b.u8 32 = match st with | .master => 0 | .proxy => 1)
    (some_ : 1 ≤ b.u8 33) (few : b.u8 33 ≤ 8) (fits : b.u8 33 + 2 = b.units) : grantDirective b s =
      if b.address ∈ s.writers.grants.map GrantRecord.block then complete .busy 0 s else grantTaken b st s := by
  have slots : ¬(b.u8 33 = 0 ∨ 8 < b.u8 33 ∨ b.u8 33 ≠ b.units - 2) := by omega
  have record : (s.writers.grants.any fun g => g.block == b.address) = true
      ↔ b.address ∈ s.writers.grants.map GrantRecord.block := by
    simp
  simp only [grantDirective, grantChecked, streamOfCode_eq named, if_neg slots, record]
  by_cases known : b.address ∈ s.writers.grants.map GrantRecord.block
  · simp only [if_pos known]
  · simp only [if_neg known]

end

theorem refusedSlotWritten_eq {b : Block} {s : State} {refused : Nat} {left : List (Nat × Reason)}
    (block : s.walker.block = some b) (stage : b.stage = .slots refused left) : refusedSlotWritten s = walkerAsks
      (match left.tail with
        | (i, reason) :: _ => ⟨.refusedSlot, b.address + 76 + 32 * i, 15,
            List.replicate 12 0 ++ [BitVec.ofNat 8 reason.code, 0, 1]⟩
        | [] => ⟨.walkerCount, b.address + 34, 1, [BitVec.ofNat 8
            (((s.writers.grants.find? fun g => g.block == b.address).map GrantRecord.returned).getD (b.u8 33))]⟩)
      (match left.tail with
        | [] => .count refused
        | _ :: _ => .slots refused left.tail) b s := by
  rw [← requestGrantWrite_eq block]
  simp only [refusedSlotWritten, block, stage]

/-- Settles O53: the checks in the order of R119, `gradeSlots_eq` for the slots, and each write's end by the stage that
the walker keeps. -/
theorem grantGraded : Obligations.GrantGraded := by
  refine ⟨fun s b calm hand => ⟨fun bad => ?_, fun st named some_ few fits => ⟨fun known => ?_, fun fresh => ?_⟩⟩,
    fun s u b calm block => ⟨fun refused left on stage => ⟨fun i reason next => ?_, fun last => ?_⟩,
      fun refused on stage => ?_⟩⟩
  · exact follows_answer calm hand rfl (grantDirective_range bad) rfl rfl
  · exact follows_answer calm hand rfl ((grantDirective_inRange named some_ few fits).trans (if_pos known)) rfl rfl
  · obtain ⟨master, proxy, run, -⟩ := calm
    have command : exec .grant s = .next (settle (grantTaken b st s)) := by
      refine congrArg Host.Outcome.next ((takeDirective_eq _ hand).trans (congrArg settle ?_))
      exact (grantDirective_inRange named some_ few fits).trans (if_neg fresh)
    have asks := grantTaken_eq (st := st) hand.1 (by omega) fresh (gradeSlots_eq b _ _ _).symm
    have taken := follows_of_acts command asks (calm_asks _ _ _ ((slotsTaken_relinquish _).trans master)
      ((slotsTaken_relinquish _).trans proxy) (by rwa [slotsTaken_walker]) fun g => by split <;> simp)
    exact taken
  · have asks := refusedSlotWritten_eq (s := portEnded .walker u s) block stage
    cases rest : left.tail with
    | nil => simp [rest] at next
    | cons slot rest =>
      obtain rfl : slot = (i, reason) := by simpa [rest] using next
      simp only [rest] at asks
      exact follows_of_acts (congrArg Host.Outcome.next (answerOk_eq _ on)) asks
        (calm_asks _ _ _ calm.1 calm.2.1 calm.2.2.1 fun g => by simp)
  · have asks := refusedSlotWritten_eq (s := portEnded .walker u s) block stage
    simp only [last] at asks
    exact follows_of_acts (congrArg Host.Outcome.next (answerOk_eq _ on)) asks
      (calm_asks _ _ _ calm.1 calm.2.1 calm.2.2.1 fun g => by simp)
  · have answers : returnedCountWritten (portEnded .walker u s)
        = answered (if refused = 0 then .done else .partly) (b.u8 33 - refused) b (portEnded .walker u s) := by
      rw [← complete_eq _ _ (show (portEnded .walker u s).walker.block = some b from block)]
      simp only [returnedCountWritten, show (portEnded .walker u s).walker.block = some b from block, stage]
    exact follows_of_acts (congrArg Host.Outcome.next (answerOk_eq _ on)) answers (calm_answered _ _ _ calm.1 calm.2.1)

end Sys2Proof.Proofs
end

section
/-! SUPPORT. What one stream's writer holds while all settles: the other stream's writer, the Page Writer's request and
the grant leave it (R122 to R135), and its own settling changes it by its returns only. -/

namespace Sys2Proof.Proofs

open Sys2Proof.Machine Sys2Proof.Laws

/-- What a stream's writer holds, and its results that wait, are in `t` as in `s`, and no engine reset begins. -/
structure HandsOf (st : Stream) (s t : State) : Prop where
  results : t.page.results.filter (·.stream == st) = s.page.results.filter (·.stream == st)
  segments : (t.writer st).segments = (s.writer st).segments
  current : (t.writer st).current = (s.writer st).current
  relinquish : (t.writer st).relinquish = (s.writer st).relinquish
  written : (t.writer st).written = (s.writer st).written
  going : s.walker.state ≠ .resetting → t.walker.state ≠ .resetting

/-- What a stream's writer holds, every result and the walker are in `t` as in `s`. -/
structure Still (st : Stream) (s t : State) : Prop where
  walker : t.walker = s.walker
  results : t.page.results = s.page.results
  segments : (t.writer st).segments = (s.writer st).segments
  current : (t.writer st).current = (s.writer st).current
  relinquish : (t.writer st).relinquish = (s.writer st).relinquish
  written : (t.writer st).written = (s.writer st).written

section
variable {st : Stream} {s t u : State}

theorem HandsOf.refl (st : Stream) (s : State) : HandsOf st s s := ⟨rfl, rfl, rfl, rfl, rfl, id⟩

theorem HandsOf.trans (h : HandsOf st s t) (k : HandsOf st t u) : HandsOf st s u :=
  ⟨k.results.trans h.results, k.segments.trans h.segments, k.current.trans h.current,
    k.relinquish.trans h.relinquish, k.written.trans h.written, k.going ∘ h.going⟩

theorem Still.refl (st : Stream) (s : State) : Still st s s := ⟨rfl, rfl, rfl, rfl, rfl, rfl⟩

theorem Still.trans (h : Still st s t) (k : Still st t u) : Still st s u :=
  ⟨k.walker.trans h.walker, k.results.trans h.results, k.segments.trans h.segments, k.current.trans h.current,
    k.relinquish.trans h.relinquish, k.written.trans h.written⟩

/-- Where the streams' writers, the results and the walker are kept, all is still. -/
theorem Still.of_eq (walker : t.walker = s.walker) (results : t.page.results = s.page.results)
    (writer : t.writer st = s.writer st) : Still st s t :=
  ⟨walker, results, by rw [writer], by rw [writer], by rw [writer], by rw [writer]⟩

theorem Still.hands (h : Still st s t) : HandsOf st s t :=
  ⟨by rw [h.results], h.segments, h.current, h.relinquish, h.written, by rw [h.walker]; exact id⟩

theorem Still.flight (h : Still st s t) : t.flight = s.flight := by rw [State.flight, State.flight, h.walker]

end

/-! ## The parts of settling -/

section
variable (st o : Stream) (s : State)

theorem requestWrite_still : Still st s (requestWrite o s) := by
  unfold requestWrite
  dsimp only
  split
  · split
    · exact .of_eq rfl rfl rfl
    · exact .refl st s
  · exact .refl st s

theorem writer_of_ne {st o : Stream} (ne : o ≠ st) (w : Writer) (s : State) :
    (putWriter st w s).writer o = s.writer o := Per.get_set_other _ _ ne

theorem refreshState_still : Still st s (refreshState o s) := by
  have results {b : Bool} {n : Notice} {u : State} : (raiseIf b n u).page.results = u.page.results := by
    cases b <;> rfl
  unfold refreshState
  dsimp only
  by_cases same : st = o
  · subst same
    refine ⟨walker_raiseIf _ _ _, results, ?_, ?_, ?_, ?_⟩
    all_goals rw [writer_raiseIf, writer_putWriter_same]
  · exact .of_eq (walker_raiseIf _ _ _) results ((writer_raiseIf _ _ _ _).trans (writer_of_ne same _ _))

theorem pageRequest_still : Still st s (pageRequest s) := by
  obtain ⟨walker, writers, -, results, -⟩ := pageRequest_keeps s
  exact .of_eq walker results (by rw [State.writer, State.writer, writers])

theorem grantPort_still : Still st s (grantPort s) := by
  unfold grantPort
  dsimp only
  split
  · exact .refl st s
  · split
    · exact .refl st s
    · split
      · exact .of_eq rfl rfl rfl
      · exact .of_eq rfl rfl rfl

theorem complete_going (v : Verdict) (detail : Nat) (going : s.walker.state ≠ .resetting) :
    (complete v detail s).walker.state ≠ .resetting := by
  cases block : s.walker.block with
  | none => simpa [complete, block] using going
  | some b =>
    rw [complete_eq v detail block, answered]
    by_cases stopping : s.walker.state = .stopping <;> simp [stopping]

theorem complete_hands (v : Verdict) (detail : Nat) : HandsOf st s (complete v detail s) := by
  cases block : s.walker.block with
  | none =>
    have same : complete v detail s = s := by simp [complete, block]
    rw [same]
    exact .refl st s
  | some b =>
    have going := complete_going s v detail
    rw [complete_eq v detail block] at going ⊢
    exact ⟨rfl, rfl, rfl, rfl, rfl, going⟩

theorem testDrained_hands : HandsOf st s (testDrained s) := by
  unfold testDrained
  split
  · exact complete_hands st s _ _
  · exact .refl st s

/-- The end of settling, after both writers. -/
theorem requests_still {s : State} (flight : s.flight ≠ some .drained) :
    Still st s (grantPort (pageRequest (testDrained s))) := by
  have idle : testDrained s = s := by simp [testDrained, flight]
  rw [idle]
  exact (pageRequest_still st s).trans (grantPort_still st _)

theorem requests_hands : HandsOf st s (grantPort (pageRequest (testDrained s))) :=
  (testDrained_hands st s).trans ((pageRequest_still st _).trans (grantPort_still st _)).hands

end

/-! ## The other stream's writer -/

section
variable (o : Stream) (s : State)

/-- A result of one stream is none of the other's. -/
theorem handResult_hands {r : Result} (stream : r.stream = o) : HandsOf (otherStream o) s (handResult r s) := by
  have foreign : (r.stream == otherStream o) = false := by
    rw [stream]
    exact beq_false_of_ne (other_ne o).symm
  refine ⟨?_, rfl, rfl, rfl, rfl, id⟩
  rw [handResult, List.filter_append, List.filter_singleton, foreign]
  exact List.append_nil _

theorem putWriter_still_other (w : Writer) : Still (otherStream o) s (putWriter o w s) :=
  .of_eq rfl rfl (writer_putWriter_other o w s)

theorem putSegments_still_other (l : List Segment) : Still (otherStream o) s (putSegments o l s) :=
  .of_eq (walker_putSegments o l s) (results_putSegments o l s) (writer_putSegments_other o l s)

theorem closeUndone_hands (reason : Reason) (otherwise : Nat) :
    HandsOf (otherStream o) s (closeUndone o reason otherwise s) := by
  unfold closeUndone
  dsimp only
  split
  · exact .refl _ s
  · exact (putWriter_still_other o s _).hands.trans (handResult_hands o _ rfl)

theorem returnUnused_hands (reason : Reason) (counted : Bool) :
    HandsOf (otherStream o) s (returnUnused o reason counted s) := by
  unfold returnUnused
  split
  · exact .refl _ s
  · exact (putSegments_still_other o s _).hands.trans (handResult_hands o _ rfl)

theorem advanceRelinquish_hands : HandsOf (otherStream o) s (advanceRelinquish o s) := by
  unfold advanceRelinquish
  split
  · exact .refl _ s
  · split
    · exact .refl _ s
    · split
      · exact (putWriter_still_other o s _).hands.trans (complete_hands _ _ _ _)
      · split
        · exact .refl _ s
        · exact returnUnused_hands o s _ _

theorem advanceReset_hands : HandsOf (otherStream o) s (advanceReset o s) := by
  unfold advanceReset
  split
  · exact .refl _ s
  · split
    · exact closeUndone_hands o s _ _
    · exact returnUnused_hands o s _ _

theorem advanceReturns_hands : HandsOf (otherStream o) s (advanceReturns o s) := by
  unfold advanceReturns
  split
  · exact advanceReset_hands o s
  · exact advanceRelinquish_hands o s

theorem takeSegment_still_other : Still (otherStream o) s (takeSegment o s) := by
  unfold takeSegment
  dsimp only
  split
  · split
    · exact .refl _ s
    · exact (putWriter_still_other o s _).trans (putSegments_still_other o _ _)
  · exact .refl _ s

/-- A burst requested and the writer state worked out afresh leave both streams' hands. -/
theorem requested_still (st : Stream) : Still st s (refreshState o (requestWrite o s)) :=
  (requestWrite_still st o s).trans (refreshState_still st o _)

theorem settleWriter_hands : HandsOf (otherStream o) s (settleWriter o s) :=
  (advanceReturns_hands o s).trans
    ((takeSegment_still_other o _).trans (requested_still o _ _)).hands

theorem settleWriter_still_other {s : State} (idle : (s.writer o).relinquish = none)
    (going : s.walker.state ≠ .resetting) : Still (otherStream o) s (settleWriter o s) := by
  have one := settleWriter_one o s idle going
  exact .of_eq one.walker (by rw [one.page]) one.other

end

/-! ## The stream's own writer -/

section
variable {st : Stream} {s : State}

/-- A writer takes no segment while a RELINQUISH is in hand, a result of its own is awaited, or its list is empty
(R123, R132). -/
theorem takeSegment_none (h : (s.writer st).relinquish ≠ none ∨ awaitsResult st s = true ∨ (s.writer st).segments = []) :
    takeSegment st s = s := by
  unfold takeSegment
  dsimp only
  split
  next takes =>
    simp only [Bool.and_eq_true, Bool.not_eq_true', Option.isNone_iff_eq_none] at takes
    obtain ⟨⟨⟨⟨-, -⟩, awaited⟩, relinquish⟩, -⟩ := takes
    have empty : (s.writer st).segments = [] := by
      rcases h with held | awaits | empty
      · exact absurd relinquish held
      · rw [awaits] at awaited
        contradiction
      · exact empty
    rw [empty]
  next => rfl

/-- A stream's returns rest: no RELINQUISH is in its hand, or what its RELINQUISH waits for is still to come (R132,
R133); and its writer takes no segment. -/
structure Rests (st : Stream) (s : State) : Prop where
  going : s.walker.state ≠ .resetting
  returns : ∀ q, (s.writer st).relinquish = some q →
    q.close.isSome = true ∨ (∃ r ∈ s.page.results, r.stream = st ∧ r.counted = true)
      ∨ (s.writer st).segments ≠ [] ∧ ∃ r ∈ s.page.results, r.stream = st ∧ r.own = false
  takes : (s.writer st).relinquish ≠ none ∨ ∃ r ∈ s.page.results, r.stream = st ∧ r.own = true

theorem advanceReturns_going (going : s.walker.state ≠ .resetting) : advanceReturns st s = advanceRelinquish st s := by
  simp [advanceReturns, State.resetting, going]

theorem Rests.advance (rests : Rests st s) : advanceReturns st s = s := by
  rw [advanceReturns_going rests.going]
  unfold advanceRelinquish
  split
  · rfl
  · next q hand =>
    rcases rests.returns q hand with close | ⟨r, mem, stream, counted⟩ | ⟨held, r, mem, stream, own⟩
    · simp [close]
    · have waits : s.page.results.any (fun x => x.stream == st && x.counted) = true :=
        List.any_eq_true.2 ⟨r, mem, by simp [stream, counted]⟩
      simp [waits]
    · have unused : awaitsUnused st s = true := List.any_eq_true.2 ⟨r, mem, by simp [stream, own]⟩
      simp [held, unused]

theorem Rests.settleWriter (rests : Rests st s) : Still st s (settleWriter st s) := by
  have take : takeSegment st s = s := by
    refine takeSegment_none (rests.takes.imp_right fun ⟨r, mem, stream, own⟩ => .inl ?_)
    exact List.any_eq_true.2 ⟨r, mem, by simp [stream, own]⟩
  rw [Machine.settleWriter, rests.advance, take]
  exact requested_still st s st

theorem HandsOf.mem {t : State} (hands : HandsOf st s t) {p : Result → Prop} :
    (∃ r ∈ s.page.results, r.stream = st ∧ p r) → ∃ r ∈ t.page.results, r.stream = st ∧ p r := by
  rintro ⟨r, mem, stream, holds⟩
  have listed : r ∈ t.page.results.filter (·.stream == st) := by
    rw [hands.results]
    exact List.mem_filter.2 ⟨mem, by simp [stream]⟩
  exact ⟨r, (List.mem_filter.1 listed).1, stream, holds⟩

theorem Rests.keeps {t : State} (rests : Rests st s) (hands : HandsOf st s t) : Rests st t := by
  refine ⟨hands.going rests.going, fun q hand => ?_, ?_⟩
  · rw [hands.relinquish] at hand
    rw [hands.segments]
    exact (rests.returns q hand).imp_right (.imp hands.mem (.imp_right hands.mem))
  · rw [hands.relinquish]
    exact rests.takes.imp_right hands.mem

/-- While a stream's returns rest, all that settles leaves its hands, whatever the other stream gives back. -/
theorem Rests.settle (rests : Rests st s) : HandsOf st s (settle s) := by
  have writers : HandsOf st s (Machine.settleWriter .proxy (Machine.settleWriter .master s)) := by
    cases st with
    | master => exact rests.settleWriter.hands.trans (settleWriter_hands .proxy _)
    | proxy =>
      have first : HandsOf .proxy s (Machine.settleWriter .master s) := settleWriter_hands .master s
      exact first.trans (rests.keeps first).settleWriter.hands
  exact writers.trans (requests_hands st _)

end

/-! ## A RELINQUISH in hand goes on -/

section
variable {st : Stream} {s : State}

/-- With no RELINQUISH in the other stream's hand, all that settles changes a stream's hands by its returns only, where
no segment is taken after them. -/
theorem settle_advanced (other : (s.writer (otherStream st)).relinquish = none) (going : s.walker.state ≠ .resetting)
    (goes : ∀ m, Still st s m → FollowedBy s m → takeSegment st (advanceReturns st m) = advanceReturns st m
      ∧ (advanceReturns st m).walker.state ≠ .resetting ∧ (advanceReturns st m).flight ≠ some .drained) :
    ∃ m, Still st s m ∧ FollowedBy s m ∧ Still st (advanceReturns st m) (settle s) := by
  have own {m : State} (take : takeSegment st (advanceReturns st m) = advanceReturns st m) :
      Still st (advanceReturns st m) (settleWriter st m) := by
    rw [settleWriter, take]
    exact requested_still st _ st
  cases st with
  | master =>
    obtain ⟨take, goingOn, flight⟩ := goes s (.refl _ s) (followedBy_refl s)
    have first := own take
    have second : Still .master (settleWriter .master s) (settleWriter .proxy (settleWriter .master s)) := by
      refine settleWriter_still_other .proxy ?_ ?_
      · exact (settleWriter_hands .master s).relinquish.trans other
      · rwa [first.walker]
    have both := first.trans second
    exact ⟨s, .refl _ s, followedBy_refl s, both.trans (requests_still _ (by rwa [both.flight]))⟩
  | proxy =>
    have first : Still .proxy s (settleWriter .master s) := settleWriter_still_other .master other going
    have follows := settleWriter_followedBy .master s
    obtain ⟨take, -, flight⟩ := goes _ first follows
    have second := own take
    exact ⟨_, first, follows, second.trans (requests_still _ (by rwa [second.flight]))⟩

/-- What a RELINQUISH waits for has not come: nothing of the stream changes. -/
theorem settle_rests (other : (s.writer (otherStream st)).relinquish = none) (rests : Rests st s)
    (held : (s.writer st).relinquish ≠ none) (flight : s.flight ≠ some .drained) : Still st s (settle s) := by
  obtain ⟨m, still, -, settled⟩ := settle_advanced other rests.going fun m still _ => by
    rw [(rests.keeps still.hands).advance]
    exact ⟨takeSegment_none (.inl (by rwa [still.relinquish])), still.hands.going rests.going, by rwa [still.flight]⟩
  rw [(rests.keeps still.hands).advance] at settled
  exact still.trans settled

variable {q : Relinquish}

/-- A RELINQUISH is no longer in the stream's hand (R132). -/
def relinquishDone (st : Stream) (s : State) : State := putWriter st { s.writer st with relinquish := none } s

/-- A RELINQUISH in hand waits neither for a close nor for a result of its own. -/
structure GoesOn (st : Stream) (q : Relinquish) (s : State) : Prop where
  going : s.walker.state ≠ .resetting
  hand : (s.writer st).relinquish = some q
  close : q.close = none
  uncounted : ∀ r ∈ s.page.results, r.stream = st → r.counted = false

theorem GoesOn.keeps {m : State} (goes : GoesOn st q s) (still : Still st s m) : GoesOn st q m :=
  ⟨still.hands.going goes.going, still.relinquish.trans goes.hand, goes.close, by rw [still.results]; exact goes.uncounted⟩

theorem GoesOn.advance (goes : GoesOn st q s) : advanceReturns st s =
    if (s.writer st).segments.isEmpty then
      complete .done q.returned (relinquishDone st s)
    else if awaitsUnused st s then s
    else returnUnused st .relinquished true s := by
  have uncounted : s.page.results.any (fun x => x.stream == st && x.counted) = false := by
    rw [List.any_eq_false]
    intro r mem
    have idle := goes.uncounted r mem
    by_cases stream : r.stream = st
    · simp [idle stream]
    · simp [stream]
  rw [advanceReturns_going goes.going]
  simp only [advanceRelinquish, goes.hand, goes.close, uncounted]
  rfl

theorem answered_going (v : Verdict) (detail : Nat) (b : Block) (s : State) :
    (answered v detail b s).walker.state ≠ .resetting := by
  unfold answered
  dsimp only
  split <;> nofun

/-- The list is empty: the RELINQUISH completes DONE (R132). -/
theorem settle_done {b : Block} (goes : GoesOn st q s) (other : (s.writer (otherStream st)).relinquish = none)
    (block : s.walker.block = some b) (empty : (s.writer st).segments = []) :
    (settle s).walker = (answered .done q.returned b s).walker ∧ ((settle s).writer st).relinquish = none
      ∧ ((settle s).writer st).current = (s.writer st).current ∧ (settle s).page.results = s.page.results := by
  have advance {m : State} (still : Still st s m) :
      advanceReturns st m = answered .done q.returned b (relinquishDone st m) := by
    have blocks : (relinquishDone st m).walker.block = some b := by
      rw [← block, ← still.walker]
      rfl
    rw [(goes.keeps still).advance, still.segments, empty, ← complete_eq _ _ blocks]
    rfl
  have hands (m : State) : (answered .done q.returned b (relinquishDone st m)).writer st
      = { m.writer st with relinquish := none } := writer_putWriter_same st _ m
  obtain ⟨m, still, follows, settled⟩ := settle_advanced other goes.going fun m still _ => by
    rw [advance still]
    refine ⟨takeSegment_none (.inr (.inr ?_)), answered_going _ _ _ _, by simp [State.flight, answered]⟩
    rw [hands]
    exact still.segments.trans empty
  rw [advance still] at settled
  refine ⟨settled.walker.trans ?_, settled.relinquish.trans (by rw [hands]), settled.current.trans ?_,
    settled.results.trans still.results⟩
  · have walker : (relinquishDone st m).walker = s.walker := still.walker
    have counter : (relinquishDone st m).intake = s.intake := follows.intake.intake
    simp only [answered, walker, counter]
  · rw [hands]
    exact still.current

/-- The list is not empty and no unused segment's result waits: the first segment goes back (R132). -/
theorem settle_returns {g : Segment} {rest : List Segment} (goes : GoesOn st q s)
    (other : (s.writer (otherStream st)).relinquish = none) (flight : s.flight ≠ some .drained)
    (listed : (s.writer st).segments = g :: rest) (owned : ∀ r ∈ s.page.results, r.stream = st → r.own = true) :
    (settle s).walker = s.walker ∧ ((settle s).writer st).relinquish = some q ∧ ((settle s).writer st).segments = rest
      ∧ ((settle s).writer st).current = (s.writer st).current
      ∧ (settle s).page.results = s.page.results ++ [⟨st, g, 0, 0, 0, 0, false, .relinquished, false, true⟩] := by
  have advance {m : State} (still : Still st s m) :
      advanceReturns st m = handResult (unusedResult st g .relinquished true) (putSegments st rest m) := by
    have unused : awaitsUnused st m = false := by
      rw [awaitsUnused, still.results, List.any_eq_false]
      intro r mem
      have own := owned r mem
      by_cases stream : r.stream = st
      · simp [own stream]
      · simp [stream]
    have listed : (m.writer st).segments = g :: rest := still.segments.trans listed
    rw [(goes.keeps still).advance]
    simp [listed, unused, returnUnused]
  have walker {m : State} (still : Still st s m) :
      (handResult (unusedResult st g .relinquished true) (putSegments st rest m)).walker = s.walker :=
    (walker_putSegments st rest m).trans still.walker
  have hand {m : State} (still : Still st s m) :
      ((handResult (unusedResult st g .relinquished true) (putSegments st rest m)).writer st).relinquish = some q :=
    (relinquish_putSegments st rest m).trans (still.relinquish.trans goes.hand)
  obtain ⟨m, still, -, settled⟩ := settle_advanced other goes.going fun m still _ => by
    rw [advance still]
    refine ⟨takeSegment_none (.inl (by simp [hand still])), by rw [walker still]; exact goes.going, ?_⟩
    rw [State.flight, walker still]
    exact flight
  rw [advance still] at settled
  refine ⟨settled.walker.trans (walker still), settled.relinquish.trans (hand still),
    settled.segments.trans (segments_putSegments st rest m),
    settled.current.trans ((current_putSegments st rest m).trans still.current), settled.results.trans ?_⟩
  rw [← still.results, ← results_putSegments st rest m]
  rfl

end

end Sys2Proof.Proofs
end

section
/-! SUPPORT. Bursts that fail (R131, R138 to R140, R167). -/

namespace Sys2Proof.Proofs

open Sys2Proof.Machine Sys2Proof.Laws

/-! ## A walker's burst -/

section
variable {s : State} {k : Block}

theorem faultFrame_counter (block : s.walker.block = some k) (stage : ∀ o d f, k.stage ≠ .outcome o d f) :
    faultFrame s = s.intake.counter := by
  simp only [faultFrame, block, Option.map_some]
  split
  next o d f written => exact absurd (Option.some.inj written) (stage o d f)
  next => rfl

theorem faultFrame_outcome {o d : Nat} {f : Frame} (block : s.walker.block = some k) (stage : k.stage = .outcome o d f) :
    faultFrame s = f := by
  simp only [faultFrame, block, Option.map_some, stage]

/-- A failed burst of the walker ends its chain by fault, with no entry pending (R140, R167, R168). -/
theorem walkerFailed_follows {b : Burst} {limit : Bool} (calm : Calm s) (fails : Fails limit .walker s)
    (on : OnPort .walker b.kind b s) (empty : s.walker.pendingEntry = none) :
    ∃ t, exec (failing limit) s = .next t ∧ Follows
      (raise .chain (reportFault
        ⟨b.kind.walkerFault, .directiveWalker, some b.address, some (faultFrame s), none⟩
        { portFailed limit .walker b s with
          walker := { s.walker with
            state := .idle, block := none, lastBlock := none, continuation := none, count := 0
            haltRequest := false } })) t := by
  obtain ⟨port, burst, -, reset⟩ := on
  have command := failing_eq port burst (orphan_false (.inr reset)) fails
  exact follows_of_acts command (endChain_idle empty) ⟨calm.1, calm.2.1, nofun, nofun⟩

end

/-! ## The Page Writer's burst -/

/-- A failed result write still returns its segment, counted once (R131). -/
theorem resultFailed_eq {s : State} {b : Burst} {r : Result} {rest : List Result} (results : s.page.results = r :: rest)
    (uncounted : r.counted = false) : resultFailed b s =
      raise (.returned r.stream)
        (reportFault ⟨.resultWrite, .pageWriter, some b.address, some r.first, some r.stream⟩
          { s with
            writers := { s.writers with
              grants := (if b.kind = .resultSlot then
                  s.writers.grants.map fun g =>
                    if g.block = r.segment.block then { g with returned := g.returned + 1 } else g
                else s.writers.grants).filter fun g => g.returned != g.slots }
            page := { s.page with results := rest } }) := by
  simp only [resultFailed, results]
  by_cases slot : b.kind = .resultSlot
  · simp only [if_pos slot]
    exact segmentReturned_uncounted results uncounted
  · simp only [if_neg slot]
    exact segmentReturned_uncounted results uncounted

/-! ## A writer's burst -/

/-- A stream's writer after its burst failed, before all settles: its segment is closed BUS_FAULT, the entry is to be
written again whole, and the fault is reported (R139). -/
def segmentFailed (st : Stream) (kind : FaultKind) (b : Burst) (e : Entry) (c : Current) (s : State) : State :=
  let w := s.writer st
  reportFault ⟨kind, writerSource st, some b.address, some e.frame, some st⟩
    (putWriter st { w with current := none, relinquish := closeDone w, written := 0 }
      (handResult (closedResult st c .busFault (c.entryStart.getD (if w.written = 0 then c.position else 0))
        c.entryStart.isSome w.closePending) s))

section
variable {st : Stream} {kind : FaultKind} {b : Burst} {e : Entry} {c : Current} {s : State}

theorem writerFailed_eq (front : (s.entries st).head? = some e) (current : (s.writer st).current = some c) :
    writerFailed st kind b s = segmentFailed st kind b e c s := by
  simp only [writerFailed, front, closeUndone, current, Option.map_some, Option.getD_some]
  cases st <;> rfl

theorem segmentFailed_writer : (segmentFailed st kind b e c s).writer st
    = { s.writer st with current := none, relinquish := closeDone (s.writer st), written := 0 } :=
  writer_putWriter_same st _ _

theorem segmentFailed_results : (segmentFailed st kind b e c s).page.results = s.page.results
    ++ [closedResult st c .busFault (c.entryStart.getD (if (s.writer st).written = 0 then c.position else 0))
        c.entryStart.isSome (s.writer st).closePending] := rfl

theorem segmentFailed_filter : (segmentFailed st kind b e c s).page.results.filter (·.stream == st)
    = s.page.results.filter (·.stream == st)
      ++ [closedResult st c .busFault (c.entryStart.getD (if (s.writer st).written = 0 then c.position else 0))
        c.entryStart.isSome (s.writer st).closePending] := by
  rw [segmentFailed_results, List.filter_append]
  simp [closedResult]

theorem segmentFailed_log (unlogged : s.isPending .fault = false) : (segmentFailed st kind b e c s).notices.log
    = some ⟨kind, writerSource st, some b.address, some e.frame, some st⟩ := by
  have captured (f : FaultReport) (u : State) (same : u.notices = s.notices) : (reportFault f u).notices.log = some f := by
    have clear : u.isPending .fault = false := by rw [State.isPending, same]; exact unlogged
    simp only [reportFault, raise, oweRewrite, logFault, clear]
    rfl
  exact captured _ _ rfl

/-- The closed segment's result is awaited, and counts for the RELINQUISH whose close it was (R123, R133). -/
theorem segmentFailed_rests (going : s.walker.state ≠ .resetting)
    (hand : (s.writer st).relinquish = none ∨ (s.writer st).closePending = true) :
    Rests st (segmentFailed st kind b e c s) := by
  have handed : closedResult st c .busFault (c.entryStart.getD (if (s.writer st).written = 0 then c.position else 0))
      c.entryStart.isSome (s.writer st).closePending ∈ (segmentFailed st kind b e c s).page.results := by
    rw [segmentFailed_results]
    exact List.mem_append_right _ (List.mem_singleton.2 rfl)
  refine ⟨going, fun q held => .inr (.inl ⟨_, handed, rfl, ?_⟩), .inr ⟨_, handed, rfl, rfl⟩⟩
  rcases hand with free | closing
  · simp [segmentFailed_writer, closeDone, free] at held
  · exact closing

theorem segmentFailed_raises : RaisesOnly (.fault :: followUps) s (segmentFailed st kind b e c s) := by
  intro n
  have raised : (segmentFailed st kind b e c s).isPending n = (s.isPending n || decide (n = .fault)) :=
    isPending_reportFault n _ _
  rw [raised]
  simp only [Bool.or_eq_true, decide_eq_true_eq, List.mem_cons]
  exact ⟨.inl, .imp_right .inl⟩

end

/-- Settles O38: the walker by its burst's kind and stage, the writers by what their hands keep while all settles, the
Page Writer by its burst's kind. -/
theorem burstErrorActs : Obligations.BurstErrorActs := by
  refine ⟨fun s b k limit calm fails on empty block => ?_,
    fun s st b e c limit unlogged fails on front current going => ?_,
    fun s b limit calm port burst fails => ⟨fun rewrite => ?_, fun r rest kind results uncounted => ?_⟩⟩
  · have follows := walkerFailed_follows calm fails on empty
    refine ⟨fun kind stage => ?_, fun kind stage => ?_, fun kind o d f stage => ?_⟩
    · rw [faultFrame_counter block stage] at follows
      rcases kind with kind | kind | kind <;> rwa [kind] at follows
    · rw [faultFrame_counter block stage] at follows
      rcases kind with kind | kind <;> rwa [kind] at follows
    · rw [faultFrame_outcome block stage, kind] at follows
      exact follows
  · intro closing hand
    obtain ⟨port, burst, -, reset⟩ := on
    have command := failing_eq port burst (orphan_false (.inr reset)) fails
    have failed : burstFailed (writerRequester st) (failure limit) b (portFailed limit (writerRequester st) b s)
        = segmentFailed st (failure limit) b e c (portFailed limit (writerRequester st) b s) := by
      cases st <;> exact writerFailed_eq front current
    rw [failed] at command
    have hands := (segmentFailed_rests (kind := failure limit) (b := b) (e := e) (c := c)
      (s := portFailed limit (writerRequester st) b s) going hand).settle
    have follows := settle_followedBy
      (segmentFailed st (failure limit) b e c (portFailed limit (writerRequester st) b s))
    refine ⟨_, command, ?_, ?_, hands.current.trans ?_, hands.written.trans ?_, hands.relinquish.trans ?_,
      follows.shared, follows.retries, follows.log.log.trans ?_, ?_, ?_, follows.records.queue, follows.records.clips,
      ⟨follows.intake.intake, follows.intake.slots, follows.intake.inputs⟩,
      ⟨follows.coders.master, follows.coders.proxy, follows.coders.governor, follows.coders.freeTag⟩⟩
    · intro start begun
      refine hands.results.trans (segmentFailed_filter.trans ?_)
      simp only [closedResult, begun, Option.getD_some, Option.isSome_some, Bool.true_and, decide_eq_true_eq, if_true]
      rfl
    · intro unbegun
      refine hands.results.trans (segmentFailed_filter.trans ?_)
      simp only [closedResult, unbegun]
      rfl
    · rw [segmentFailed_writer]
    · rw [segmentFailed_writer]
    · rw [segmentFailed_writer]
      rfl
    · exact segmentFailed_log unlogged
    · refine ((follows.raises .fault).1 ?_)
      exact (isPending_reportFault .fault _ _).trans (by simp)
    · have freed : RaisesOnly (.fault :: followUps) s (portFailed limit (writerRequester st) b s) :=
        raisesOnly_of_pending rfl
      exact raisesOnly_trans freed (raisesOnly_trans segmentFailed_raises
        (raisesOnly_widen (fun n mem => List.mem_cons_of_mem _ mem) follows.raises))
  · have command := failing_eq port burst (orphan_false (.inl rfl)) fails
    exact follows_of_acts command (if_pos rewrite) calm
  · have command := failing_eq port burst (orphan_false (.inl rfl)) fails
    have other : b.kind ≠ .rewrite := by rcases kind with kind | kind <;> simp [kind]
    exact follows_of_acts command ((if_neg other).trans (resultFailed_eq results uncounted)) calm

end Sys2Proof.Proofs
end

section
/-! SUPPORT. RELINQUISH taken, and the return of a segment that it gives back (R132, R133). -/

namespace Sys2Proof.Proofs

open Sys2Proof.Machine Sys2Proof.Laws

/-! ## RELINQUISH begins -/

section
variable {st : Stream} {s : State}

theorem beginRelinquish_followedBy (st : Stream) (closes : Bool) (s : State) : FollowedBy s (beginRelinquish st closes s) := by
  have withdrawn (r : Requester) (u : State) : FollowedBy u (withdrawBurst r u) := by
    unfold withdrawBurst
    split
    · exact followedBy_refl u
    · exact dropBurst_followedBy r u
  unfold beginRelinquish
  dsimp only
  split
  · split
    · exact putWriter_followedBy _ _ s
    · split
      · exact putWriter_followedBy _ _ s
      · exact followedBy_trans (putWriter_followedBy _ _ s)
          (followedBy_trans (withdrawn _ _) (closeSegment_followedBy _ _ _))
  · exact putWriter_followedBy _ _ s

/-- A RELINQUISH is in the hand of a stream's writer, with no segment returned yet. -/
def relinquishHeld (st : Stream) (close : Option CloseWhen) (s : State) : State :=
  putWriter st { s.writer st with relinquish := some ⟨close, 0⟩ } s

theorem relinquishHeld_writer (close : Option CloseWhen) :
    (relinquishHeld st close s).writer st = { s.writer st with relinquish := some ⟨close, 0⟩ } :=
  writer_putWriter_same st _ s

theorem relinquishHeld_other (close : Option CloseWhen) :
    (relinquishHeld st close s).writer (otherStream st) = s.writer (otherStream st) := writer_putWriter_other st _ s

theorem beginRelinquish_open {closes : Bool} (h : ¬(closes = true ∧ (s.writer st).current ≠ none)) :
    beginRelinquish st closes s = relinquishHeld st none s := by
  unfold beginRelinquish
  dsimp only
  split
  next c current => exact absurd ⟨rfl, by simp [current]⟩ h
  next => rfl

/-- The close waits for the entry that is mid-write, or else for the burst in progress (R133). -/
theorem beginRelinquish_waits {c : Current} (current : (s.writer st).current = some c)
    (waits : (s.writer st).written ≠ 0 ∧ c.position ≠ 0 ∨ s.arbiter.port = some (writerRequester st)) :
    beginRelinquish st true s = relinquishHeld st
      (some (if (s.writer st).written ≠ 0 ∧ c.position ≠ 0 then .afterEntry else .afterBurst)) s := by
  simp only [beginRelinquish, current]
  by_cases mid : (s.writer st).written ≠ 0 ∧ c.position ≠ 0
  · rw [if_pos mid, if_pos (by simpa [midWrite] using mid)]
    simp only [relinquishHeld, current]
  · have busy : s.inProgress (writerRequester st) = true := by simp [State.inProgress, waits.resolve_left mid]
    rw [if_neg mid, if_neg (by simpa [midWrite] using mid), if_pos busy]
    simp only [relinquishHeld, current]

/-- The current segment closed for a RELINQUISH with no burst of its writer in progress (R133). -/
def closedAtOnce (st : Stream) (c : Current) (s : State) : State :=
  handResult (closedResult st c .relinquished c.position false true)
    (putWriter st { s.writer st with current := none, relinquish := some ⟨none, 0⟩ } (dropBurst (writerRequester st) s))

theorem beginRelinquish_closes {c : Current} (current : (s.writer st).current = some c)
    (between : ¬((s.writer st).written ≠ 0 ∧ c.position ≠ 0)) (free : s.arbiter.port ≠ some (writerRequester st)) :
    beginRelinquish st true s = closedAtOnce st c s := by
  have idle : ∀ w, (putWriter st w s).inProgress (writerRequester st) = false := fun w => beq_false_of_ne free
  simp only [beginRelinquish, current]
  rw [if_neg (by simpa [midWrite] using between), if_neg (by simp [State.inProgress, free])]
  simp only [closeAtOnce, withdrawBurst, idle, closeSegment, Bool.false_eq_true, if_false, current]
  cases st <;> rfl

theorem closedAtOnce_writer {c : Current} : (closedAtOnce st c s).writer st
    = { s.writer st with current := none, relinquish := some ⟨none, 0⟩ } := writer_putWriter_same st _ _

theorem closedAtOnce_other {c : Current} :
    (closedAtOnce st c s).writer (otherStream st) = s.writer (otherStream st) := writer_putWriter_other st _ _

theorem closedAtOnce_results {c : Current} : (closedAtOnce st c s).page.results = s.page.results
    ++ [closedResult st c .relinquished c.position false true] := rfl

end

/-! ## RELINQUISH under settling -/

section
variable {st : Stream} {s : State} {b : Block}

theorem relinquish_range (off : 1 < b.u8 32) :
    relinquishDirective b s = complete .range 0 s := by
  simp only [relinquishDirective, streamOfCode_bad off]

theorem relinquish_named (named : b.u8 32 = match st with | .master => 0 | .proxy => 1) :
    relinquishDirective b s = if s.walker.state = .stopping then complete .abandoned 0 s
      else beginRelinquish st (b.u8 33 != 0) (goInFlight (.relinquish st) s) := by
  simp only [relinquishDirective, streamOfCode_eq named]

theorem relinquish_begins (hand : InHand .relinquish b s)
    (named : b.u8 32 = match st with | .master => 0 | .proxy => 1) (runs : s.walker.state ≠ .stopping) :
    exec .relinquish s = .next (settle (beginRelinquish st (b.u8 33 != 0) (inFlight (.relinquish st) b s))) := by
  refine congrArg Host.Outcome.next ?_
  rw [takeDirective_eq _ hand, relinquish_named named, if_neg runs, goInFlight_eq _ hand.1]

end

/-- What a RELINQUISH taken leaves as it was (R132). -/
theorem relinquish_followedBy (st : Stream) (b : Block) (closes : Bool) (s : State) :
    FollowedBy s (settle (beginRelinquish st closes (inFlight (.relinquish st) b s))) := by
  have flies : FollowedBy s (inFlight (.relinquish st) b s) := followedBy_of_eq rfl
  exact followedBy_trans flies (followedBy_trans (beginRelinquish_followedBy st closes _) (settle_followedBy _))

section
variable {st : Stream} {s : State} {b : Block}

/-- A RELINQUISH in hand with no close to come goes on at once, unless a result of its own waits (R132). -/
theorem relinquishHeld_goesOn (uncounted : ∀ r ∈ s.page.results, r.stream = st → r.counted = false) :
    GoesOn st ⟨none, 0⟩ (relinquishHeld st none (inFlight (.relinquish st) b s)) :=
  ⟨nofun, by rw [relinquishHeld_writer], rfl, uncounted⟩

theorem relinquishHeld_free (close : Option CloseWhen) (calm : NoRelinquish s) :
    ((relinquishHeld st close (inFlight (.relinquish st) b s)).writer (otherStream st)).relinquish = none := by
  rw [relinquishHeld_other]
  exact calm _

theorem relinquishHeld_flight (close : Option CloseWhen) :
    (relinquishHeld st close (inFlight (.relinquish st) b s)).flight ≠ some .drained := nofun

/-- A RELINQUISH that waits leaves its stream as it is, the RELINQUISH in its hand (R132, R133). -/
theorem settle_waits (calm : NoRelinquish s) {close : Option CloseWhen}
    (waits : close.isSome = true
      ∨ (s.writer st).segments ≠ [] ∧ ∃ r ∈ s.page.results, r.stream = st ∧ r.own = false) :
    let t := settle (relinquishHeld st close (inFlight (.relinquish st) b s))
    t.walker = (inFlight (.relinquish st) b s).walker ∧ (t.writer st).relinquish = some ⟨close, 0⟩
      ∧ (t.writer st).segments = (s.writer st).segments ∧ (t.writer st).current = (s.writer st).current
      ∧ t.page.results = s.page.results := by
  have writer : (relinquishHeld st close (inFlight (.relinquish st) b s)).writer st
      = { s.writer st with relinquish := some ⟨close, 0⟩ } := relinquishHeld_writer close
  have held : ((relinquishHeld st close (inFlight (.relinquish st) b s)).writer st).relinquish ≠ none := by
    simp [writer]
  have rests : Rests st (relinquishHeld st close (inFlight (.relinquish st) b s)) := by
    refine ⟨nofun, fun q hand => ?_, .inl held⟩
    rw [writer] at hand ⊢
    obtain rfl : ⟨close, 0⟩ = q := by simpa using hand
    exact waits.imp_right .inr
  have still := settle_rests (relinquishHeld_free close calm) rests held (relinquishHeld_flight close)
  exact ⟨still.walker, still.relinquish.trans (by rw [writer]), still.segments.trans (by rw [writer]),
    still.current.trans (by rw [writer]), still.results⟩

/-- The current segment closed at once is the first that goes back, and the list waits for it (R133). -/
theorem settle_closes (calm : NoRelinquish s) {c : Current} :
    let t := settle (closedAtOnce st c (inFlight (.relinquish st) b s))
    t.walker = (inFlight (.relinquish st) b s).walker ∧ (t.writer st).relinquish = some ⟨none, 0⟩
      ∧ (t.writer st).segments = (s.writer st).segments ∧ (t.writer st).current = none
      ∧ t.page.results = s.page.results ++ [closedResult st c .relinquished c.position false true] := by
  have writer : (closedAtOnce st c (inFlight (.relinquish st) b s)).writer st
      = { s.writer st with current := none, relinquish := some ⟨none, 0⟩ } := closedAtOnce_writer
  have held : ((closedAtOnce st c (inFlight (.relinquish st) b s)).writer st).relinquish ≠ none := by simp [writer]
  have handed : closedResult st c .relinquished c.position false true
      ∈ (closedAtOnce st c (inFlight (.relinquish st) b s)).page.results := by
    rw [closedAtOnce_results]
    exact List.mem_append_right _ (List.mem_singleton.2 rfl)
  have rests : Rests st (closedAtOnce st c (inFlight (.relinquish st) b s)) :=
    ⟨nofun, fun q hand => .inr (.inl ⟨_, handed, rfl, rfl⟩), .inl held⟩
  have still := settle_rests (by rw [closedAtOnce_other]; exact calm _) rests held nofun
  exact ⟨still.walker, still.relinquish.trans (by rw [writer]), still.segments.trans (by rw [writer]),
    still.current.trans (by rw [writer]), still.results⟩

end

/-! ## A segment given back is returned -/

/-- The segment of the oldest result is returned for the RELINQUISH in the hand of a stream's writer (R130, R132). -/
def relinquishCounted (st : Stream) (q : Relinquish) (rest : List Result) (s : State) : State :=
  putWriter st { s.writer st with relinquish := some { q with returned := q.returned + 1 } }
    (freeGrants (raise (.returned st) { s with page := { s.page with results := rest } }))

section
variable {st : Stream} {s : State} {q : Relinquish} {r : Result} {rest : List Result}

theorem segmentReturned_counted (results : s.page.results = r :: rest) (stream : r.stream = st) (counted : r.counted = true)
    (hand : (s.writer st).relinquish = some q) : segmentReturned s = relinquishCounted st q rest s := by
  have kept : (freeGrants (raise (.returned st) { s with page := { s.page with results := rest } })).writer st
      = s.writer st := rfl
  simp only [segmentReturned, results, countRelinquished, counted, stream, kept, hand]
  rfl

theorem relinquishCounted_writer : (relinquishCounted st q rest s).writer st
    = { s.writer st with relinquish := some { q with returned := q.returned + 1 } } := writer_putWriter_same st _ _

theorem relinquishCounted_other : (relinquishCounted st q rest s).writer (otherStream st) = s.writer (otherStream st) :=
  writer_putWriter_other st _ _

theorem relinquishCounted_raised : (relinquishCounted st q rest s).isPending (.returned st) = true :=
  (isPending_raise _ _ _).trans (by simp)

end

/-- Settles O54, by what the RELINQUISH finds of its stream, and by what is left of the list when a segment that it
gave back is returned. -/
theorem relinquishTaken : Obligations.RelinquishTaken := by
  refine ⟨fun s b st calm hand => ?_, ?_⟩
  · intro w closes holds keeps mid busy
    have free : NoRelinquish s := fun o => by
      cases o
      · exact calm.1
      · exact calm.2.1
    have kept (cl : Bool) : keeps (settle (beginRelinquish st cl (inFlight (.relinquish st) b s))) := by
      have follows := relinquish_followedBy st b cl s
      exact ⟨follows.intake, follows.coders, follows.records, follows.log, follows.shared, follows.lines,
        follows.grants, follows.raises⟩
    have stays (opens : ¬closes) :
        ¬((b.u8 33 != 0) = true ∧ ((inFlight (.relinquish st) b s).writer st).current ≠ none) :=
      fun ⟨wants, current⟩ => opens ⟨by simpa using wants, current⟩
    refine ⟨fun off => follows_answer calm hand rfl (relinquish_range off) rfl rfl, fun named =>
      ⟨fun stops => ?_, fun runs opens empty uncounted => ?_, fun g rest runs opens listed uncounted => ?_,
        fun c runs wants current => ⟨fun waits => ?_, fun between idle => ?_⟩⟩⟩
    · exact follows_answer calm hand rfl ((relinquish_named named).trans (if_pos stops)) rfl rfl
    · have begun := relinquish_begins hand named runs
      have kept := kept (b.u8 33 != 0)
      rw [beginRelinquish_open (stays opens)] at begun kept
      obtain ⟨walker, relinquish, current, results⟩ := settle_done (relinquishHeld_goesOn uncounted)
        (relinquishHeld_free none free) rfl (by rw [relinquishHeld_writer]; exact empty)
      refine ⟨_, begun, walker.trans ?_, relinquish, current.trans ?_, kept, results⟩
      · simp only [answered, if_neg runs]
        rfl
      · rw [relinquishHeld_writer]
        rfl
    · have begun := relinquish_begins hand named runs
      have kept := kept (b.u8 33 != 0)
      rw [beginRelinquish_open (stays opens)] at begun kept
      refine ⟨fun owned => ?_, fun x mem stream own => ?_⟩
      · obtain ⟨walker, relinquish, segments, current, results⟩ := settle_returns (relinquishHeld_goesOn uncounted)
          (relinquishHeld_free none free) (relinquishHeld_flight none)
          (by rw [relinquishHeld_writer]; exact listed) owned
        refine ⟨_, begun, ⟨walker, relinquish, segments⟩, kept, current.trans ?_, results⟩
        rw [relinquishHeld_writer]
        rfl
      · have held : (s.writer st).segments ≠ [] := by
          rw [show (s.writer st).segments = g :: rest from listed]
          nofun
        obtain ⟨walker, relinquish, segments, current, results⟩ :=
          settle_waits (b := b) (close := none) free (.inr ⟨held, x, mem, stream, own⟩)
        exact ⟨_, begun, ⟨walker, relinquish, segments⟩, kept, current, results⟩
    · have acts : beginRelinquish st true (inFlight (.relinquish st) b s) = relinquishHeld st
          (some (if mid c then .afterEntry else .afterBurst)) (inFlight (.relinquish st) b s) :=
        beginRelinquish_waits (s := inFlight (.relinquish st) b s) current waits
      have begun := relinquish_begins hand named runs
      have kept := kept true
      rw [show (b.u8 33 != 0) = true by simpa using wants, acts] at begun
      rw [acts] at kept
      obtain ⟨walker, relinquish, segments, current_, results⟩ :=
        settle_waits (b := b) (close := some (if mid c then .afterEntry else .afterBurst)) free (.inl rfl)
      exact ⟨_, begun, ⟨walker, relinquish, segments⟩, kept, current_.trans current, results⟩
    · have acts : beginRelinquish st true (inFlight (.relinquish st) b s)
          = closedAtOnce st c (inFlight (.relinquish st) b s) :=
        beginRelinquish_closes (s := inFlight (.relinquish st) b s) current between idle
      have begun := relinquish_begins hand named runs
      have kept := kept true
      rw [show (b.u8 33 != 0) = true by simpa using wants, acts] at begun
      rw [acts] at kept
      obtain ⟨walker, relinquish, segments, current_, results⟩ := settle_closes (b := b) (c := c) free
      exact ⟨_, begun, ⟨walker, relinquish, segments⟩, kept, current_, results⟩
  · intro s st b u q r rest flies waiting hand close other port burst kind results stream counted uncounted
    have command : exec .resultCountBurstDone s = .next (settle (segmentReturned (portEnded .page u s))) :=
      congrArg Host.Outcome.next (kind ▸ answerOk_page (fun _ => segmentReturned) port burst)
    rw [segmentReturned_counted (s := portEnded .page u s) results stream counted hand] at command
    have goes : GoesOn st { q with returned := q.returned + 1 } (relinquishCounted st q rest (portEnded .page u s)) := by
      refine ⟨?_, by rw [relinquishCounted_writer], close, uncounted⟩
      rw [show (relinquishCounted st q rest (portEnded .page u s)).walker = s.walker from rfl, waiting]
      nofun
    have free : ((relinquishCounted st q rest (portEnded .page u s)).writer (otherStream st)).relinquish = none := by
      rw [relinquishCounted_other]
      exact other
    have follows := settle_followedBy (relinquishCounted st q rest (portEnded .page u s))
    have raised := (follows.raises (.returned st)).1 relinquishCounted_raised
    have intake : KeepsIntake s (settle (relinquishCounted st q rest (portEnded .page u s))) :=
      ⟨follows.intake.intake, follows.intake.slots, follows.intake.inputs⟩
    have coders : KeepsCoders s (settle (relinquishCounted st q rest (portEnded .page u s))) :=
      ⟨follows.coders.master, follows.coders.proxy, follows.coders.governor, follows.coders.freeTag⟩
    have records : KeepsRecords s (settle (relinquishCounted st q rest (portEnded .page u s))) :=
      ⟨follows.records.queue, follows.records.clips⟩
    have log : KeepsLog s (settle (relinquishCounted st q rest (portEnded .page u s))) :=
      ⟨follows.log.log, follows.log.later⟩
    refine ⟨fun empty => ?_, fun g more listed owned => ?_⟩
    · obtain ⟨walker, relinquish, -, left⟩ := settle_done goes free flies.1 (by rw [relinquishCounted_writer]; exact empty)
      exact ⟨_, command, walker, relinquish, raised, left, intake, coders, records, log⟩
    · have flight : (relinquishCounted st q rest (portEnded .page u s)).flight ≠ some .drained := by
        rw [show (relinquishCounted st q rest (portEnded .page u s)).flight = s.flight from rfl, flight_eq flies]
        nofun
      obtain ⟨walker, relinquish, segments, -, left⟩ := settle_returns goes free flight
        (by rw [relinquishCounted_writer]; exact listed) owned
      exact ⟨_, command, walker, relinquish.trans (by rw [close]), raised, segments, left, intake, coders, records, log⟩

end Sys2Proof.Proofs
end
